-- ==== Sys2Proof/Word.lean ====
section
/-! DEFINITION. Bytes, byte strings and their sum (spec 00_scope.md R8 and R9). -/

namespace Sys2Proof

/-- A byte: eight bits, a natural number 0 to 255 (R8). -/
abbrev Byte := BitVec 8

/-- A byte string: a finite list of bytes, index 0 first (R9). -/
abbrev Bytes := List Byte

/-- `Σ s`: the natural-number sum of a byte string's bytes (R9). -/
def sumBytes (s : Bytes) : Nat := (s.map BitVec.toNat).sum

end Sys2Proof
end

