-- ==== Sys2Proof/Config.lean ====
section
/-! DEFINITION. The implementation parameters (00_scope.md R6, R7), the environment's choices (10_state.md R41) and
the one free value of the model: which step the environment lets fire next (R11, R56). -/

namespace Sys2Proof

/-- What a rejected edge does (41_pulse_counter.md R145). -/
inductive RejectPolicy where
  /-- `BAL` and `CNT` become 0: the observed behaviour, and the default. -/
  | zero
  /-- Nothing changes. -/
  | ignore
deriving DecidableEq, Repr

/-- The parameters of R6. They are inputs of the block, fixed at instantiation and constant for the whole run, across
reset too (10_state.md R37). The machine's state carries them unchanged, so that every statement is about every
configuration. -/
structure Config where
  /-- `DEBOUNCE_WINDOW_MS`; every natural number is legal (R149). -/
  debounceWindowMs : Nat
  /-- `REJECT_POLICY` (R145). -/
  rejectPolicy : RejectPolicy
  /-- `ZERO_BALANCE_AFTER_LOAD` (R164). -/
  zeroBalanceAfterLoad : Bool
  /-- `BAL_BITS`, the width of `BAL` (R22). -/
  balBits : Nat
  /-- `CNT_BITS`, the width of `CNT` (R23). -/
  cntBits : Nat
  /-- `RX_CAP`, the bound of `RXBUF` in bytes (R27). -/
  rxCap : Nat
  /-- `HAS_DIR`: whether there is a direction line (R114). -/
  hasDir : Bool
  /-- `SETTLE_US` in microseconds, a lower bound on real time that no step rule reads (R264). -/
  settleUs : Rat
  /-- `STATUS_TEXT`, the message of `GET_STATUS` (R183). -/
  statusText : Bytes
  /-- `RESET_COUNT_ACK`, the message of `RESET_COUNT` (R190). -/
  resetCountAck : Bytes
deriving DecidableEq, Repr

/-- `BAL_MAX = 2^BAL_BITS - 1` (R6). -/
def Config.balMax (c : Config) : Nat := 2 ^ c.balBits - 1

/-- `CNT_MAX = 2^CNT_BITS - 1` (R6). -/
def Config.cntMax (c : Config) : Nat := 2 ^ c.cntBits - 1

/-- The bytes that `STATUS_TEXT` and `RESET_COUNT_ACK` may hold: 0x20 to 0x7E, without `"` and `\` (30_encoding.md
R85). -/
def isResponseTextByte (b : Byte) : Bool :=
  decide (0x20 ≤ b.toNat) && decide (b.toNat ≤ 0x7E) && b != 0x22 && b != 0x5C

/-- The legal configurations (R6, 70_reset_and_hazards.md R262 item 1). One outside these bounds is outside the spec. -/
abbrev Config.Legal (c : Config) : Prop :=
  8 ≤ c.balBits ∧ 8 ≤ c.cntBits ∧ 258 ≤ c.rxCap ∧ 0 < c.settleUs ∧
    c.statusText.all isResponseTextByte = true ∧ c.resetCountAck.all isResponseTextByte = true

/-- The defaults of R6. R6 leaves `HAS_DIR` open.
DESIGN CHOICE (unsafe, log entry 1): this one configuration takes it as present. No statement rests on that. -/
def Config.default : Config where
  debounceWindowMs := 100
  rejectPolicy := .zero
  zeroBalanceAfterLoad := false
  balBits := 32
  cntBits := 32
  rxCap := 512
  hasDir := true
  settleUs := 100
  statusText := [0x4F, 0x4B]
  resetCountAck := [0x63, 0x6F, 0x75, 0x6E, 0x74, 0x20, 0x72, 0x65, 0x73, 0x65, 0x74]

/-- `START_MARKER` (R7). -/
def startMarker : Byte := 0x7E

/-- `MAX_PAYLOAD` (R7). -/
def maxPayload : Nat := 255

/-- `MIN_FRAME` (R7). -/
def minFrame : Nat := 3

/-- The WalletStore collaborator's result of reading the snapshot (42_wallet_store.md R160). -/
inductive RestoreResult where
  | absent
  | corrupt
  | valid (balance count : Nat)
deriving DecidableEq, Repr

/-- The atomic steps of the seven agents (00_scope.md R11), with the value the environment chooses for each
(10_state.md R41). -/
inductive Event where
  /-- `RX_IN(b)`: a byte arrives from the line (R108). -/
  | rxIn (b : Byte)
  /-- `DEC`: the decoder applies `decode` once (R109). -/
  | dec
  /-- `TX_BEGIN`: the direction line rises (R111). -/
  | txBegin
  /-- `TX_BYTE`: the next byte is emitted (R112). -/
  | txByte
  /-- `TX_END`: the frame is finished (R113). -/
  | txEnd
  /-- `EDGE`: a rising edge of the coin-sense input (R140). -/
  | edge
  /-- `PULSE(now)`: the captured edge is served at clock reading `now` (R142). -/
  | pulse (now : Nat)
  /-- `CMD`: one decoded payload is executed (R180). -/
  | cmd
  /-- `RESET` (R260). -/
  | reset
  /-- `BOOT(r)`: the wallet is restored (R160). -/
  | boot (r : RestoreResult)
deriving DecidableEq, Repr, Inhabited

/-- The step the environment offers at its `n`-th free choice. Any step may fire at any moment and every input value
is admitted (R11, R41, R56), so nothing is known of this constant: it has no body. It is the model's free value (log
entry 2). -/
opaque Config.environment : Nat → Event

end Sys2Proof
end

