-- ==== Sys2Proof/Syntax.lean ====
section
/-! DEFINITION. The commands of the coin wallet core: one constructor for each row of spec/opcode_table.json, and
the rows' texts (30_encoding.md R76, R80, R87). -/

namespace Sys2Proof

/-- The commands a frame's payload can carry (R80).
An amount command carries its amount text, the bytes after the `=`, and not yet a number: whether the text is a
valid amount depends on `BAL_MAX` (R79), and a malformed amount is reported with its text (R191). -/
inductive Instr where
  /-- `GET_BALANCE` (R182). -/
  | getBalance
  /-- `GET_STATUS` (R183). -/
  | getStatus
  /-- `GET_COIN_COUNT` (R184). -/
  | getCoinCount
  /-- `ADD_BALANCE=` and its amount text (R185, R186, R191). -/
  | addBalance (amountText : Bytes)
  /-- `SUB_BALANCE=` and its amount text (R187, R188, R191). -/
  | subBalance (amountText : Bytes)
  /-- `RESET_BALANCE` (R189). -/
  | resetBalance
  /-- `RESET_COUNT` (R190). -/
  | resetCount
  /-- Every other trimmed payload, with its text (R81, R192). -/
  | unknown (text : Bytes)
deriving DecidableEq, Repr

/-! The `match` column of the opcode table, in ASCII. -/

/-- `GET_BALANCE` in ASCII. -/
def kwGetBalance : Bytes :=
  [0x47, 0x45, 0x54, 0x5F, 0x42, 0x41, 0x4C, 0x41, 0x4E, 0x43, 0x45]

/-- `GET_STATUS` in ASCII. -/
def kwGetStatus : Bytes :=
  [0x47, 0x45, 0x54, 0x5F, 0x53, 0x54, 0x41, 0x54, 0x55, 0x53]

/-- `GET_COIN_COUNT` in ASCII. -/
def kwGetCoinCount : Bytes :=
  [0x47, 0x45, 0x54, 0x5F, 0x43, 0x4F, 0x49, 0x4E, 0x5F, 0x43, 0x4F, 0x55, 0x4E, 0x54]

/-- `ADD_BALANCE=` in ASCII. -/
def kwAddBalance : Bytes :=
  [0x41, 0x44, 0x44, 0x5F, 0x42, 0x41, 0x4C, 0x41, 0x4E, 0x43, 0x45, 0x3D]

/-- `SUB_BALANCE=` in ASCII. -/
def kwSubBalance : Bytes :=
  [0x53, 0x55, 0x42, 0x5F, 0x42, 0x41, 0x4C, 0x41, 0x4E, 0x43, 0x45, 0x3D]

/-- `RESET_BALANCE` in ASCII. -/
def kwResetBalance : Bytes :=
  [0x52, 0x45, 0x53, 0x45, 0x54, 0x5F, 0x42, 0x41, 0x4C, 0x41, 0x4E, 0x43, 0x45]

/-- `RESET_COUNT` in ASCII. -/
def kwResetCount : Bytes :=
  [0x52, 0x45, 0x53, 0x45, 0x54, 0x5F, 0x43, 0x4F, 0x55, 0x4E, 0x54]

end Sys2Proof
end

