-- ==== Sys2Proof/WellFormed.lean ====
section
/-! DEFINITION. Which commands are the reading of some payload: the bounds on their texts (30_encoding.md R76 to
R81). -/

namespace Sys2Proof

/-- The whitespace set `WS` of R77: tab, line feed, vertical tab, form feed, carriage return, space. -/
def isWhitespace (b : Byte) : Bool :=
  b == 0x09 || b == 0x0A || b == 0x0B || b == 0x0C || b == 0x0D || b == 0x20

/-- No whitespace at either end: the text is what `trim` leaves (R77). -/
def isTrimmed (t : Bytes) : Bool :=
  !(t.head?.any isWhitespace) && !(t.getLast?.any isWhitespace)

/-- The five keywords that match a whole payload (R80, R87). -/
def exactKeywords : List Bytes :=
  [kwGetBalance, kwGetStatus, kwGetCoinCount, kwResetBalance, kwResetCount]

/-- Whether a trimmed text matches some row of the table other than `UNKNOWN` (R80). -/
def isCommandText (t : Bytes) : Bool :=
  exactKeywords.contains t || t.take 12 == kwAddBalance || t.take 12 == kwSubBalance

/-- A command that some payload of at most 255 bytes reads as: an amount text has no whitespace at its end and leaves
room for its keyword, and an unknown text is trimmed and is no command. -/
def Instr.wellFormed : Instr → Bool
  | .getBalance => true
  | .getStatus => true
  | .getCoinCount => true
  | .addBalance a => decide (a.length + 12 ≤ maxPayload) && !(a.getLast?.any isWhitespace)
  | .subBalance a => decide (a.length + 12 ≤ maxPayload) && !(a.getLast?.any isWhitespace)
  | .resetBalance => true
  | .resetCount => true
  | .unknown t => decide (t.length ≤ maxPayload) && isTrimmed t && !(isCommandText t)

end Sys2Proof
end

