-- ==== Sys2Proof/Decode.lean ====
section
/-! DEFINITION. The command decoder and encoder: `trim` (30_encoding.md R77), `parse` (R80), and the bytes of a
command (R76, R86). -/

namespace Sys2Proof

/-- `trim`: the payload without its leading and trailing whitespace bytes (R77). -/
def trim (p : Bytes) : Bytes :=
  ((p.dropWhile isWhitespace).reverse.dropWhile isWhitespace).reverse

/-- `parse`: the command a payload stands for, total on every byte string (R80). -/
def parse (p : Bytes) : Instr :=
  let t := trim p
  if t = kwGetBalance then .getBalance
  else if t = kwGetStatus then .getStatus
  else if t = kwGetCoinCount then .getCoinCount
  else if t = kwResetBalance then .resetBalance
  else if t = kwResetCount then .resetCount
  else if 12 ≤ t.length ∧ t.take 12 = kwAddBalance then .addBalance (t.drop 12)
  else if 12 ≤ t.length ∧ t.take 12 = kwSubBalance then .subBalance (t.drop 12)
  else .unknown t

/-- Why a byte string is no payload of a frame. -/
inductive DecodeError where
  /-- It is longer than `MAX_PAYLOAD`, so no frame carries it (R7, R70). The length is given. -/
  | payloadTooLarge (length : Nat)
deriving DecidableEq, Repr

/-- The decoder on any bytes: `parse` where a frame can carry them, and a named rejection where none can. -/
def decodeBytes (p : Bytes) : Except DecodeError Instr :=
  if p.length ≤ maxPayload then .ok (parse p) else .error (.payloadTooLarge p.length)

/-- The payload bytes of a command: its keyword, and the amount text or the unknown text (R76, R86). -/
def encode : Instr → Bytes
  | .getBalance => kwGetBalance
  | .getStatus => kwGetStatus
  | .getCoinCount => kwGetCoinCount
  | .addBalance a => kwAddBalance ++ a
  | .subBalance a => kwSubBalance ++ a
  | .resetBalance => kwResetBalance
  | .resetCount => kwResetCount
  | .unknown t => t

/-- The `n` bytes of a number, least significant first.
DESIGN CHOICE (log entry 4): the spec has a payload as bytes (30_encoding.md R87) and never as one number, so the order
of the bytes in a number is the model's convention. -/
def bytesOfWord : Nat → Nat → Bytes
  | 0, _ => []
  | n + 1, w => BitVec.ofNat 8 w :: bytesOfWord n (w / 256)

/-- The command the decoder reads from a payload of `nbits / 8` bytes whose bits are `w`. A payload is as long as its
frame's length byte says (R70), so no bits stand above `nbits`. -/
def decodeTableWord (nbits w : Nat) : Option Instr :=
  (decodeBytes (bytesOfWord (nbits / 8) w)).toOption

end Sys2Proof
end

