-- ==== Sys2Proof/Machine/State.lean ====
section
/-! DEFINITION. The state of the block (10_state.md R20), the model's record of the environment beside it, and the
state after reset (R42). -/

namespace Sys2Proof.Machine

/-- `TXPH`, the transmit sequencer's phase (R30). -/
inductive TxPhase where
  /-- No frame is being sent. -/
  | idle
  /-- `TXQ` is being drained. -/
  | send
deriving DecidableEq, Repr

/-- The error conditions of 60_exceptions.md R230, each with the value its `raise` gives (00_scope.md R10). No trap is
taken for any of them (R244). -/
inductive ErrorCondition where
  /-- Code 1: a candidate with length byte `length` failed its checksum (R231). -/
  | frameCorrupt (length : Nat)
  /-- Code 2: the master's name for silence; no step raises it (R110, R232). -/
  | frameTimeout
  /-- Code 3: a response of `length` bytes, above 255 (R101, R233). -/
  | payloadTooLarge (length : Nat)
  /-- Code 4: an amount text that is no amount (R234). -/
  | invalidAmount (text : Bytes)
  /-- Code 5: a subtraction of more than the balance (R235). -/
  | insufficientBalance (amount : Nat)
  /-- Code 6: the snapshot could not be loaded; its value is always `load` (R162, R236). -/
  | persistenceFailure
  /-- Code 7: a payload that is no command (R237). -/
  | unknownCommand (text : Bytes)
  /-- Code 8: an addition past `BAL_MAX` (R238). -/
  | balanceOverflow (amount : Nat)
  /-- Code 9: a byte lost because `RXBUF` was full (R239). -/
  | rxOverrun (b : Byte)
deriving DecidableEq, Repr

/-- What a step gives to the world outside the block (R10). -/
inductive Output where
  /-- `Emit(b)`: a byte is driven onto the serial line. -/
  | emit (b : Byte)
  /-- `SaveReq(b, c)`: the WalletStore is asked to make the pair durable (42_wallet_store.md R165). -/
  | saveReq (balance count : Nat)
  /-- `raise E(info)`: an error condition occurs. -/
  | raised (e : ErrorCondition)
deriving DecidableEq, Repr

/-- The state. The eleven elements of R20, the model-only clock record of R40, the configuration inputs (R37), and the
model's record of the environment: the steps it has still to offer and the outputs it has received.
The registers are natural numbers as R8 has them; `State.Wf` (Safety.lean) says that they keep their widths. -/
structure State where
  /-- The implementation parameters: inputs that no step writes (R37). -/
  cfg : Config
  /-- `BAL`, the spendable credit: unsigned, `BAL_BITS` bits (R22). -/
  bal : Nat
  /-- `CNT`, the pulse counter: unsigned, `CNT_BITS` bits (R23). -/
  cnt : Nat
  /-- `LAST`, the clock reading of the last accepted edge (R25). -/
  last : Option Nat
  /-- `LATCH`, an edge is captured and not yet served (R26). -/
  latch : Bool
  /-- `RXBUF`, received bytes not yet consumed, at most `RX_CAP` (R27). -/
  rxbuf : Bytes
  /-- `SLOT`, a decoded payload of at most 255 bytes that `CMD` has not yet taken (R28). -/
  slot : Option Bytes
  /-- `TXQ`, the bytes of one response frame not yet emitted, at most 258 (R29). -/
  txq : Bytes
  /-- `TXPH` (R30). -/
  txph : TxPhase
  /-- `DIR`, the direction line: true while transmitting (R31). -/
  dir : Bool
  /-- `STATUS`, the three sticky event flags (R32). -/
  status : BitVec 3
  /-- `BOOTED`, the boot restore is complete (R34). -/
  booted : Bool
  /-- `CLK`, the largest clock reading used so far: model-only (R40). -/
  clk : Option Nat
  /-- Model-only: the steps the environment will offer next, first one first (log entry 2). -/
  agenda : List Event
  /-- Model-only: how many free choices have been taken from `Config.environment` (log entry 2). -/
  tick : Nat
  /-- Model-only: every output so far, oldest first (log entry 3). -/
  outputs : List Output
deriving DecidableEq, Repr

/-- The reasons for a fault. There are none: no condition halts, resets or sticks the block (60_exceptions.md R240),
and no behaviour faults or stops (93_implementation_defined.md section 1). -/
inductive Fault where
deriving DecidableEq, Repr

/-- The reasons for a refusal. -/
inductive Refusal where
  /-- The named command has no meaning in the model yet. Raised by no arm of `exec`. Safe: the model stops. -/
  | notModelled (mnemonic : String)
  /-- The configuration is outside the legal bounds, which is outside the spec (70_reset_and_hazards.md R262 item 1;
  93_implementation_defined.md section 1 treats it as `refuse`). Raised by `step`. Safe: the model stops. -/
  | illegalConfiguration
deriving DecidableEq, Repr

/-- The state after `RESET` under configuration `c` (R42), with nothing yet offered or received by the environment. -/
def State.resetWith (c : Config) : State where
  cfg := c
  bal := 0
  cnt := 0
  last := none
  latch := false
  rxbuf := []
  slot := none
  txq := []
  txph := .idle
  dir := false
  status := 0
  booted := false
  clk := none
  agenda := []
  tick := 0
  outputs := []

/-- The machine right after power-on reset, in the default configuration (R42, R6). -/
def State.reset : State := State.resetWith Config.default

end Sys2Proof.Machine
end

