-- ==== Sys2Proof/Machine/Ops.lean ====
section
/-! DEFINITION. The named writes of the state's elements, the output events and the continuously driven outputs
(00_scope.md R10, 10_state.md R33). -/

namespace Sys2Proof.Machine

/-! Writes, one for each element a step rule of the spec writes (`NAME <- v` of R10). -/

/-- `BAL <- b; CNT <- c`: the wallet pair is written as one unit (20_memory.md R53). -/
def State.setWallet (s : State) (b c : Nat) : State := { s with bal := b, cnt := c }

/-- `LAST <- t`. -/
def State.setLast (s : State) (t : Option Nat) : State := { s with last := t }

/-- `LATCH <- v`. -/
def State.setLatch (s : State) (v : Bool) : State := { s with latch := v }

/-- `RXBUF <- buf`. -/
def State.setRxbuf (s : State) (buf : Bytes) : State := { s with rxbuf := buf }

/-- `SLOT <- p`. -/
def State.setSlot (s : State) (p : Option Bytes) : State := { s with slot := p }

/-- `TXQ <- q; TXPH <- ph`. -/
def State.setTx (s : State) (q : Bytes) (ph : TxPhase) : State := { s with txq := q, txph := ph }

/-- `DIR <- v`. -/
def State.setDir (s : State) (v : Bool) : State := { s with dir := v }

/-- `STATUS <- v`. -/
def State.setStatus (s : State) (v : BitVec 3) : State := { s with status := v }

/-- `BOOTED <- v`. -/
def State.setBooted (s : State) (v : Bool) : State := { s with booted := v }

/-- `CLK <- t` (model-only, R40). -/
def State.setClk (s : State) (t : Option Nat) : State := { s with clk := t }

/-- The environment's remaining offers and the count of its free choices (model-only). -/
def State.setAgenda (s : State) (a : List Event) (n : Nat) : State := { s with agenda := a, tick := n }

/-- The outputs are given to the world, in order (model-only record). -/
def State.output (s : State) (o : List Output) : State := { s with outputs := s.outputs ++ o }

/-! Output events (R10). -/

/-- `raise E(info)`: the condition occurs. This is all the block does to take an error: there is no trap to enter or
return from, no saved state and no vector (60_exceptions.md R244). What the step does besides is in its own rule. -/
def raise (e : ErrorCondition) (s : State) : State := s.output [.raised e]

/-- `SaveReq(BAL, CNT)`: the pair as it stands is to become durable (42_wallet_store.md R165). -/
def saveWallet (s : State) : State := s.output [.saveReq s.bal s.cnt]

/-- `sat_inc(v, MAX)` (R10). -/
def satInc (v max : Nat) : Nat := if v < max then v + 1 else max

/-! The outputs the block drives continuously (10_state.md R33). Reading one has no side effect. -/

/-- `DISP`: the current balance. -/
def disp (s : State) : Nat := s.bal

/-- `ZIND`: whether the balance is 0. -/
def zind (s : State) : Bool := s.bal == 0

/-- `DIR_PIN`: the direction line, absent without `HAS_DIR`. -/
def dirPin (s : State) : Option Bool := if s.cfg.hasDir then some s.dir else none

/-- `SNAP`: the wallet pair, read as one unit (42_wallet_store.md R166). -/
def snap (s : State) : Nat × Nat := (s.bal, s.cnt)

/-- `STATUS_OUT`: the sticky flags. -/
def statusOut (s : State) : BitVec 3 := s.status

end Sys2Proof.Machine
end

