-- ==== Sys2Proof/Machine/Flags.lean ====
section
/-! DEFINITION. The sticky flags of `STATUS` (10_state.md R32), the error codes (60_exceptions.md R230) and the state
of the one interrupt source (R243). -/

namespace Sys2Proof.Machine

/-- The bits of `STATUS` (R32). -/
inductive StatusFlag where
  /-- Bit 0, `RX_OVERRUN`. -/
  | rxOverrun
  /-- Bit 1, `TX_TOOLARGE`. -/
  | txTooLarge
  /-- Bit 2, `PERSIST_FAULT`. -/
  | persistFault
deriving DecidableEq, Repr

/-- The number of a flag's bit (R32). -/
def flagBit : StatusFlag → Nat
  | .rxOverrun => 0
  | .txTooLarge => 1
  | .persistFault => 2

/-- Whether a flag is set. -/
def hasFlag (f : StatusFlag) (s : State) : Bool := s.status.getLsbD (flagBit f)

/-- `STATUS[i] <- 1`: the flag is set and stays set until reset (R32). -/
def setFlag (f : StatusFlag) (s : State) : State := s.setStatus (s.status ||| BitVec.twoPow 3 (flagBit f))

/-- The reference number of an error condition (R230). No register holds it and no wire field carries it. -/
def errorCode : ErrorCondition → Nat
  | .frameCorrupt _ => 1
  | .frameTimeout => 2
  | .payloadTooLarge _ => 3
  | .invalidAmount _ => 4
  | .insufficientBalance _ => 5
  | .persistenceFailure => 6
  | .unknownCommand _ => 7
  | .balanceOverflow _ => 8
  | .rxOverrun _ => 9

/-- The edge interrupt is pending (R243). -/
def edgePending (s : State) : Bool := s.latch

/-- The service of the edge interrupt is enabled; its capture always is (R243). -/
def edgeServiceEnabled (s : State) : Bool := s.booted

end Sys2Proof.Machine
end

