-- ==== Sys2Proof/Machine/FrameCodec.lean ====
section
/-! DEFINITION. FrameCodec (40_frame_codec.md): the frame encoder and decoder, and the steps of the RX, DEC and TX
agents. -/

namespace Sys2Proof.Machine

/-- `checksum(L, p)`: the sum, modulo 256, of the length byte and every payload byte (30_encoding.md R72). -/
def checksum (length : Nat) (payload : Bytes) : Byte := BitVec.ofNat 8 ((length + sumBytes payload) % 256)

/-- `encode(p)`: the frame of a payload, or `PayloadTooLarge` above 255 bytes (R100, R101). -/
def encodeFrame (p : Bytes) : Option Bytes :=
  if p.length > maxPayload then none
  else some ([startMarker, BitVec.ofNat 8 p.length] ++ p ++ [checksum p.length p])

/-- What one call of `decode` gives: the new buffer, at most one payload, and the length byte of every candidate that
failed its checksum, in the order they were tested (R102, R231). -/
structure Decoded where
  buffer : Bytes
  payload : Option Bytes
  corrupt : List Nat
deriving DecidableEq, Repr

/-- `decode(buf)`: bytes before the first marker are discarded (R103), an incomplete candidate waits (R104), a complete
one whose checksum matches is yielded and consumed (R105), and one that fails loses its marker only, whereupon the
search goes on (R106). -/
def decodeFrame : Bytes → Decoded
  | [] => ⟨[], none, []⟩
  | b :: rest =>
    let buf := b :: rest
    if b ≠ startMarker then decodeFrame rest
    else if buf.length < minFrame then ⟨buf, none, []⟩
    else
      let length := (buf.getD 1 0).toNat
      if buf.length < length + 3 then ⟨buf, none, []⟩
      else
        let payload := (buf.drop 2).take length
        if checksum length payload = buf.getD (length + 2) 0 then ⟨buf.drop (length + 3), some payload, []⟩
        else
          let retry := decodeFrame rest
          ⟨retry.buffer, retry.payload, length :: retry.corrupt⟩

/-- `RX_IN(b)`: the byte is appended, or lost with `RX_OVERRUN` when `RXBUF` is full (R108). -/
def rxIn (b : Byte) (s : State) : State :=
  if s.rxbuf.length < s.cfg.rxCap then s.setRxbuf (s.rxbuf ++ [b])
  else raise (.rxOverrun b) (setFlag .rxOverrun s)

/-- `DEC` makes progress: `decode` discards, resynchronises or yields (R109). -/
def decEnabled (s : State) : Bool :=
  s.slot.isNone &&
    !(decide ((decodeFrame s.rxbuf).buffer = s.rxbuf) && (decodeFrame s.rxbuf).payload.isNone)

/-- `DEC`: `decode` is applied to the buffer once (R109). Each failed candidate raises `FrameCorrupt` (R231). -/
def decStep (s : State) : State :=
  let d := decodeFrame s.rxbuf
  let s := (s.setRxbuf d.buffer).output (d.corrupt.map fun length => .raised (.frameCorrupt length))
  match d.payload with
  | some p => s.setSlot (some p)
  | none => s

/-- `TX_BEGIN` is enabled: there is a direction line, it is low, and a frame waits (R111). -/
def txBeginEnabled (s : State) : Bool :=
  decide (s.txph = .send) && !s.dir && s.cfg.hasDir && !s.txq.isEmpty

/-- `TX_BEGIN`: the direction line rises (R111). -/
def txBegin (s : State) : State := s.setDir true

/-- `TX_BYTE` is enabled: a frame is being sent, and the line is up or absent (R112, R114). -/
def txByteEnabled (s : State) : Bool :=
  decide (s.txph = .send) && !s.txq.isEmpty && (s.dir || !s.cfg.hasDir)

/-- `TX_BYTE`: the first byte of `TXQ` is emitted (R112). -/
def txByte (s : State) : State :=
  match s.txq with
  | [] => s
  | b :: q => (s.setTx q s.txph).output [.emit b]

/-- `TX_END` is enabled: the frame is drained (R113). -/
def txEndEnabled (s : State) : Bool := decide (s.txph = .send) && s.txq.isEmpty

/-- `TX_END`: the direction line falls and the block listens again (R113). -/
def txEnd (s : State) : State := (s.setDir false).setTx s.txq .idle

end Sys2Proof.Machine
end

