-- ==== Sys2Proof/Machine/Operands.lean ====
section
/-! DEFINITION. The one operand of the commands, the amount (30_encoding.md R79), and the decimal text of a number
(00_scope.md R10). -/

namespace Sys2Proof.Machine

/-- An ASCII decimal digit, 0x30 to 0x39 (R79). -/
def isDigit (b : Byte) : Bool := decide (0x30 ≤ b.toNat) && decide (b.toNat ≤ 0x39)

/-- The number a digit string stands for, exact and unbounded (R79). -/
def digitsValue (a : Bytes) : Nat := a.foldl (fun v b => 10 * v + (b.toNat - 0x30)) 0

/-- `amount(a)`: one or more digits whose value is at most `BAL_MAX`; anything else is malformed (R79). -/
def amount (c : Config) (a : Bytes) : Option Nat :=
  if 1 ≤ a.length ∧ a.all isDigit = true then
    if digitsValue a ≤ c.balMax then some (digitsValue a) else none
  else none

/-- The ASCII digit of a number below 10. -/
def digitByte (d : Nat) : Byte := BitVec.ofNat 8 (0x30 + d)

/-- The decimal digits of `v`, at most `fuel` of them. -/
def decDigits : Nat → Nat → Bytes
  | 0, _ => []
  | fuel + 1, v => if v < 10 then [digitByte v] else decDigits fuel (v / 10) ++ [digitByte (v % 10)]

/-- `dec(v)`: the shortest ASCII decimal digit string of `v`, most significant digit first (R10). -/
def dec (v : Nat) : Bytes := decDigits (v + 1) v

end Sys2Proof.Machine
end

