-- ==== Sys2Proof/Machine/Response.lean ====
section
/-! DEFINITION. The response record, its serialisation (30_encoding.md R82 to R84), and what every command does at its
end: the save request and the response frame (43_command_processor.md R180, R193). -/

namespace Sys2Proof.Machine

/-- The `status` of a response (R82). -/
inductive ResponseStatus where
  | success
  | error
deriving DecidableEq, Repr

/-- The response record, with the names of the source's section 3 (R82). -/
structure Response where
  status : ResponseStatus
  balance : Nat
  pulseCount : Nat
  message : Bytes
  changed : Bool
  amount : Nat
deriving DecidableEq, Repr

/-! The texts of the serialisation (R83). -/

/-- `{"status":"` in ASCII. -/
def jsonOpen : Bytes :=
  [0x7B, 0x22, 0x73, 0x74, 0x61, 0x74, 0x75, 0x73, 0x22, 0x3A, 0x22]

/-- `","coin_balance":` in ASCII. -/
def jsonBalance : Bytes :=
  [0x22, 0x2C, 0x22, 0x63, 0x6F, 0x69, 0x6E, 0x5F, 0x62, 0x61, 0x6C, 0x61, 0x6E, 0x63, 0x65, 0x22,
   0x3A]

/-- `,"coin_acceptor_count":` in ASCII. -/
def jsonCount : Bytes :=
  [0x2C, 0x22, 0x63, 0x6F, 0x69, 0x6E, 0x5F, 0x61, 0x63, 0x63, 0x65, 0x70, 0x74, 0x6F, 0x72, 0x5F,
   0x63, 0x6F, 0x75, 0x6E, 0x74, 0x22, 0x3A]

/-- `,"response":"` in ASCII. -/
def jsonMessage : Bytes :=
  [0x2C, 0x22, 0x72, 0x65, 0x73, 0x70, 0x6F, 0x6E, 0x73, 0x65, 0x22, 0x3A, 0x22]

/-- `","data_changed":` in ASCII. -/
def jsonChanged : Bytes :=
  [0x22, 0x2C, 0x22, 0x64, 0x61, 0x74, 0x61, 0x5F, 0x63, 0x68, 0x61, 0x6E, 0x67, 0x65, 0x64, 0x22,
   0x3A]

/-- `,"amount":` in ASCII. -/
def jsonAmount : Bytes :=
  [0x2C, 0x22, 0x61, 0x6D, 0x6F, 0x75, 0x6E, 0x74, 0x22, 0x3A]

/-- `}` in ASCII. -/
def jsonClose : Bytes :=
  [0x7D]

/-- `success` in ASCII. -/
def txtSuccess : Bytes :=
  [0x73, 0x75, 0x63, 0x63, 0x65, 0x73, 0x73]

/-- `error` in ASCII. -/
def txtError : Bytes :=
  [0x65, 0x72, 0x72, 0x6F, 0x72]

/-- `true` in ASCII. -/
def txtTrue : Bytes :=
  [0x74, 0x72, 0x75, 0x65]

/-- `false` in ASCII. -/
def txtFalse : Bytes :=
  [0x66, 0x61, 0x6C, 0x73, 0x65]

/-! The messages of the error outcomes (R84). -/

/-- `invalid amount` in ASCII. -/
def msgInvalidAmount : Bytes :=
  [0x69, 0x6E, 0x76, 0x61, 0x6C, 0x69, 0x64, 0x20, 0x61, 0x6D, 0x6F, 0x75, 0x6E, 0x74]

/-- `unknown command` in ASCII. -/
def msgUnknownCommand : Bytes :=
  [0x75, 0x6E, 0x6B, 0x6E, 0x6F, 0x77, 0x6E, 0x20, 0x63, 0x6F, 0x6D, 0x6D, 0x61, 0x6E, 0x64]

/-- `insufficient balance` in ASCII. -/
def msgInsufficientBalance : Bytes :=
  [0x69, 0x6E, 0x73, 0x75, 0x66, 0x66, 0x69, 0x63, 0x69, 0x65, 0x6E, 0x74, 0x20, 0x62, 0x61, 0x6C,
   0x61, 0x6E, 0x63, 0x65]

/-- `balance overflow` in ASCII. -/
def msgBalanceOverflow : Bytes :=
  [0x62, 0x61, 0x6C, 0x61, 0x6E, 0x63, 0x65, 0x20, 0x6F, 0x76, 0x65, 0x72, 0x66, 0x6C, 0x6F, 0x77]

/-- The text of a `status`. -/
def responseStatusText : ResponseStatus → Bytes
  | .success => txtSuccess
  | .error => txtError

/-- The text of a Boolean. -/
def boolText (b : Bool) : Bytes := if b then txtTrue else txtFalse

/-- `serialize(r)`: one line of compact JSON, the keys in the order of R82 (R83). -/
def serialize (r : Response) : Bytes :=
  jsonOpen ++ responseStatusText r.status ++ jsonBalance ++ dec r.balance ++ jsonCount ++ dec r.pulseCount ++
    jsonMessage ++ r.message ++ jsonChanged ++ boolText r.changed ++ jsonAmount ++ dec r.amount ++ jsonClose

/-- `resp(s, m, ch, a)`: the record carries the wallet as it stands after the mutation (43_command_processor.md,
R181). -/
def makeResponse (status : ResponseStatus) (message : Bytes) (changed : Bool) (amt : Nat) (s : State) : Response where
  status := status
  balance := s.bal
  pulseCount := s.cnt
  message := message
  changed := changed
  amount := amt

/-- The end of `CMD`: the response's frame is queued and sending begins, or, above 255 bytes, `TX_TOOLARGE` is set,
`PayloadTooLarge` is raised and there is no frame (R180, R233). -/
def queueResponse (payload : Bytes) (s : State) : State :=
  match encodeFrame payload with
  | some f => s.setTx f .send
  | none => raise (.payloadTooLarge payload.length) (setFlag .txTooLarge s)

/-- A command answers, its mutation done: a save request if it changed the wallet (R193), then the response (R180). -/
def respond (status : ResponseStatus) (message : Bytes) (changed : Bool) (amt : Nat) (s : State) : State :=
  queueResponse (serialize (makeResponse status message changed amt s)) (if changed then saveWallet s else s)

end Sys2Proof.Machine
end

