-- ==== Sys2Proof/Machine/CommandProcessor.lean ====
section
/-! DEFINITION. CommandProcessor (43_command_processor.md): the meaning of each command, from the wallet mutation to
the queued response. The empty `SLOT` comes before it (`cmdStep`), as the program counter's advance would. -/

namespace Sys2Proof.Machine

/-- `GET_BALANCE` (R182). -/
def execGetBalance (s : State) : Host.Outcome State Fault Refusal :=
  .next (respond .success (dec s.bal) false 0 s)

/-- `GET_STATUS` (R183). -/
def execGetStatus (s : State) : Host.Outcome State Fault Refusal :=
  .next (respond .success s.cfg.statusText false 0 s)

/-- `GET_COIN_COUNT` (R184). -/
def execGetCoinCount (s : State) : Host.Outcome State Fault Refusal :=
  .next (respond .success (dec s.cnt) false 0 s)

/-- A malformed amount, of either amount command (R191). -/
def answerInvalidAmount (a : Bytes) (s : State) : State :=
  respond .error msgInvalidAmount false 0 (raise (.invalidAmount a) s)

/-- `ADD_BALANCE`: the sum where it fits (R185), `BalanceOverflow` where it does not (R186), and a malformed amount
(R191). -/
def execAddBalance (a : Bytes) (s : State) : Host.Outcome State Fault Refusal :=
  match amount s.cfg a with
  | none => .next (answerInvalidAmount a s)
  | some n =>
    if s.bal + n ≤ s.cfg.balMax then .next (respond .success (dec (s.bal + n)) true n (s.setWallet (s.bal + n) s.cnt))
    else .next (respond .error msgBalanceOverflow false n (raise (.balanceOverflow n) s))

/-- `SUB_BALANCE`: the difference where the balance suffices (R187), `InsufficientBalance` where it does not (R188),
and a malformed amount, tested first (R191, R241). -/
def execSubBalance (a : Bytes) (s : State) : Host.Outcome State Fault Refusal :=
  match amount s.cfg a with
  | none => .next (answerInvalidAmount a s)
  | some n =>
    if n ≤ s.bal then .next (respond .success (dec (s.bal - n)) true n (s.setWallet (s.bal - n) s.cnt))
    else .next (respond .error msgInsufficientBalance false n (raise (.insufficientBalance n) s))

/-- `RESET_BALANCE` (R189). -/
def execResetBalance (s : State) : Host.Outcome State Fault Refusal :=
  .next (respond .success (dec 0) true 0 (s.setWallet 0 s.cnt))

/-- `RESET_COUNT` (R190). -/
def execResetCount (s : State) : Host.Outcome State Fault Refusal :=
  .next (respond .success s.cfg.resetCountAck true 0 (s.setWallet s.bal 0))

/-- An unknown command: the text is not echoed (R192). -/
def execUnknown (t : Bytes) (s : State) : Host.Outcome State Fault Refusal :=
  .next (respond .error msgUnknownCommand false 0 (raise (.unknownCommand t) s))

end Sys2Proof.Machine
end

