-- ==== Sys2Proof/Machine/Dispatch.lean ====
section
/-! DEFINITION. `exec`: the dispatch of the commands to their meanings (43_command_processor.md R181). -/

namespace Sys2Proof.Machine

def exec (i : Instr) (s : State) : Host.Outcome State Fault Refusal :=
  match i with
  | .getBalance => Sys2Proof.Machine.execGetBalance s
  | .getStatus => Sys2Proof.Machine.execGetStatus s
  | .getCoinCount => Sys2Proof.Machine.execGetCoinCount s
  | .addBalance a => Sys2Proof.Machine.execAddBalance a s
  | .subBalance a => Sys2Proof.Machine.execSubBalance a s
  | .resetBalance => Sys2Proof.Machine.execResetBalance s
  | .resetCount => Sys2Proof.Machine.execResetCount s
  | .unknown t => Sys2Proof.Machine.execUnknown t s

end Sys2Proof.Machine
end

