-- ==== Sys2Proof/Machine/PulseCounter.lean ====
section
/-! DEFINITION. PulseCounter (41_pulse_counter.md): the steps of the CAP and PUL agents. -/

namespace Sys2Proof.Machine

/-- `EDGE`: the rising edge is captured; one that finds `LATCH` set changes nothing (R140, R141). -/
def edge (s : State) : State := s.setLatch true

/-- The clock is monotonic: no reading before the largest one used so far (R150). -/
def clockAllows (clk : Option Nat) (now : Nat) : Bool :=
  match clk with
  | none => true
  | some t => decide (t ≤ now)

/-- The debounce test: strictly more than the window since the last accepted edge, or no accepted edge yet (R143). -/
def debounceAccepts (c : Config) (last : Option Nat) (now : Nat) : Bool :=
  match last with
  | none => true
  | some t => decide (now - t > c.debounceWindowMs)

/-- `PULSE(now)` is enabled: an edge is pending, the block is booted, and the clock has not run backwards (R142). -/
def pulseEnabled (now : Nat) (s : State) : Bool := edgePending s && edgeServiceEnabled s && clockAllows s.clk now

/-- An accepted edge: both registers count one, saturating, and its time is kept (R144, R146). -/
def acceptEdge (now : Nat) (s : State) : State :=
  (s.setWallet (satInc s.bal s.cfg.balMax) (satInc s.cnt s.cfg.cntMax)).setLast (some now)

/-- A rejected edge: `REJECT_POLICY` decides, and `LAST` stays (R145). -/
def rejectEdge (s : State) : State :=
  match s.cfg.rejectPolicy with
  | .zero => s.setWallet 0 0
  | .ignore => s

/-- `PULSE(now)`: the captured edge is served (R142). It makes no save request and emits no byte (R147). -/
def pulse (now : Nat) (s : State) : State :=
  let served := (s.setLatch false).setClk (some now)
  if debounceAccepts s.cfg s.last now then acceptEdge now served else rejectEdge served

end Sys2Proof.Machine
end

