-- ==== Sys2Proof/Machine/WalletStore.lean ====
section
/-! DEFINITION. The block's side of the WalletStore interface (42_wallet_store.md) and reset (70_reset_and_hazards.md):
the steps of the BOOT agent. -/

namespace Sys2Proof.Machine

/-- A saved pair fits the wallet registers (R163). -/
def restoreFits (c : Config) (balance count : Nat) : Bool :=
  decide (balance ≤ c.balMax) && decide (count ≤ c.cntMax)

/-- A corrupt snapshot: the wallet is zeroed, the failure is flagged and raised, and the snapshot is overwritten
(R162). -/
def restoreCorrupt (s : State) : State :=
  saveWallet (raise .persistenceFailure (setFlag .persistFault (s.setWallet 0 0)))

/-- The wallet takes the snapshot's value: zero and a fresh snapshot when it is absent (R161), the saved pair when it
fits (R163), and as corrupt otherwise (R162, R163). -/
def restoreWallet (r : RestoreResult) (s : State) : State :=
  match r with
  | .absent => saveWallet (s.setWallet 0 0)
  | .corrupt => restoreCorrupt s
  | .valid b c => if restoreFits s.cfg b c then s.setWallet b c else restoreCorrupt s

/-- `ZERO_BALANCE_AFTER_LOAD`: the balance is dropped after every load, and no save request follows (R164). -/
def zeroAfterLoad (s : State) : State := if s.cfg.zeroBalanceAfterLoad then s.setWallet 0 s.cnt else s

/-- `BOOT(r)`: the wallet is restored and the block is booted (R160). -/
def boot (r : RestoreResult) (s : State) : State := (zeroAfterLoad (restoreWallet r s)).setBooted true

/-- `RESET`: every element of the block takes its reset value, and no save request is issued (R260, R42). The
configuration stays (10_state.md R37), and so does the model's record of the environment. -/
def resetBlock (s : State) : State :=
  ((State.resetWith s.cfg).setAgenda s.agenda s.tick).output s.outputs

end Sys2Proof.Machine
end

