-- ==== Sys2Proof/Machine/Agents.lean ====
section
/-! DEFINITION. The agents' steps together (00_scope.md R11): when each is enabled, what it does, and which one the
environment offers next. -/

namespace Sys2Proof.Machine

/-- `CMD` is enabled: the block is booted, a payload waits, and no response is being sent (43_command_processor.md
R180). -/
def cmdEnabled (s : State) : Bool := s.booted && s.slot.isSome && decide (s.txph = .idle)

/-- `CMD`: the payload is taken, decoded and executed (R180). -/
def cmdStep (s : State) : Host.Outcome State Fault Refusal :=
  match s.slot with
  | none => .next s
  | some p => exec (parse p) (s.setSlot none)

/-- `BOOT(r)` is enabled: once after each `RESET` (42_wallet_store.md R160). -/
def bootEnabled (s : State) : Bool := !s.booted

/-- The enabling condition of every step. -/
def enabled : Event → State → Bool
  | .rxIn _, _ => true
  | .dec, s => decEnabled s
  | .txBegin, s => txBeginEnabled s
  | .txByte, s => txByteEnabled s
  | .txEnd, s => txEndEnabled s
  | .edge, _ => true
  | .pulse now, s => pulseEnabled now s
  | .cmd, s => cmdEnabled s
  | .reset, _ => true
  | .boot _, s => bootEnabled s

/-- What every step does when it fires. -/
def perform : Event → State → Host.Outcome State Fault Refusal
  | .rxIn b, s => .next (rxIn b s)
  | .dec, s => .next (decStep s)
  | .txBegin, s => .next (txBegin s)
  | .txByte, s => .next (txByte s)
  | .txEnd, s => .next (txEnd s)
  | .edge, s => .next (edge s)
  | .pulse now, s => .next (pulse now s)
  | .cmd, s => cmdStep s
  | .reset, s => .next (resetBlock s)
  | .boot r, s => .next (boot r s)

/-- An offered step fires if it is enabled (R10 `enabled: P`); one that is not enabled does not, and nothing changes
(R110: time passing changes nothing). -/
def fire (e : Event) (s : State) : Host.Outcome State Fault Refusal :=
  if enabled e s then perform e s else .next s

/-- The step the environment offers next: the first of the agenda, and a free choice where the agenda is empty. -/
def nextEvent (s : State) : Event :=
  match s.agenda with
  | e :: _ => e
  | [] => Config.environment s.tick

/-- The environment's offer is used up. -/
def takeEvent (s : State) : State :=
  match s.agenda with
  | _ :: rest => s.setAgenda rest s.tick
  | [] => s.setAgenda [] (s.tick + 1)

/-- A payload is in `SLOT` and `CMD` is offered next and enabled: the block is booted and sends nothing. -/
def offerCommand (p : Bytes) (s : State) : State :=
  (((s.setBooted true).setSlot (some p)).setTx [] .idle).setAgenda (.cmd :: s.agenda) s.tick

end Sys2Proof.Machine
end

