-- ==== Sys2Proof/Machine/Step.lean ====
section
/-! DEFINITION. One step of the machine: the step the environment offers (00_scope.md R11, 20_memory.md R56). -/

namespace Sys2Proof.Machine

/-- One atomic step. The environment offers a step of some agent, and it fires if it is enabled. A configuration
outside the legal bounds is outside the spec and is refused (70_reset_and_hazards.md R262). -/
def step (s : State) : Host.Outcome State Fault Refusal :=
  if s.cfg.Legal then fire (nextEvent s) (takeEvent s) else .refused .illegalConfiguration

/-- `s` with the payload whose bits are `w` in `SLOT`, where `CMD` takes it, and with `CMD` enabled and next. It stands
for the boot and the reception of the payload's frame (log entry 4). -/
def State.withFetchWord (s : State) (nbits w : Nat) : State := offerCommand (bytesOfWord (nbits / 8) w) s

end Sys2Proof.Machine
end

