-- ==== Sys2Proof/Safety.lean ====
section
/-! DEFINITION. The terms the statements use: the states the block can be in, what a command leaves behind, what the
world has received, the payloads a byte string holds, runs of chosen steps, and weak fairness. -/

namespace Sys2Proof.Machine

/-! ## The states the block can be in -/

/-- The registers keep their widths and bounds (10_state.md R20, R22, R23, R27 to R29), and the phases agree with one
another (R30, R31, R34, R42; 41_pulse_counter.md R143). -/
structure State.Wf (s : State) : Prop where
  /-- The configuration is legal (R262). -/
  legal : s.cfg.Legal
  /-- `BAL` fits `BAL_BITS` (R22). -/
  bal_le : s.bal ≤ s.cfg.balMax
  /-- `CNT` fits `CNT_BITS` (R23). -/
  cnt_le : s.cnt ≤ s.cfg.cntMax
  /-- `RXBUF` holds at most `RX_CAP` bytes (R27). -/
  rxbuf_le : s.rxbuf.length ≤ s.cfg.rxCap
  /-- `SLOT` holds at most 255 bytes (R28). -/
  slot_le : ∀ p, s.slot = some p → p.length ≤ 255
  /-- `TXQ` holds at most 258 bytes (R29). -/
  txq_le : s.txq.length ≤ 258
  /-- In phase `IDLE` the queue is empty (43_command_processor.md R180). -/
  idle_txq : s.txph = .idle → s.txq = []
  /-- In phase `IDLE` the line listens (R31). -/
  idle_dir : s.txph = .idle → s.dir = false
  /-- A drained frame was sent with the direction line up, where there is one (R112). -/
  drained_dir : s.txph = .send → s.txq = [] → s.dir = s.cfg.hasDir
  /-- Without a direction line `DIR` is 0 (R114). -/
  dir_line : s.dir = true → s.cfg.hasDir = true
  /-- `LAST ≤ CLK` (R143, R150). -/
  last_le_clk : ∀ t, s.last = some t → ∃ c, s.clk = some c ∧ t ≤ c
  /-- Before `BOOT` no edge is served and no command runs (R34), so what they write is as reset left it (R42). -/
  unbooted : s.booted = false →
    s.bal = 0 ∧ s.cnt = 0 ∧ s.last = none ∧ s.clk = none ∧ s.txph = .idle ∧
      hasFlag .txTooLarge s = false ∧ hasFlag .persistFault s = false

/-! ## What the world has received -/

/-- The bytes driven onto the line, in order. -/
def emittedBytes : List Output → Bytes
  | [] => []
  | .emit b :: o => b :: emittedBytes o
  | .saveReq _ _ :: o => emittedBytes o
  | .raised _ :: o => emittedBytes o

/-- The pairs of the save requests, in order. -/
def saveRequests : List Output → List (Nat × Nat)
  | [] => []
  | .emit _ :: o => saveRequests o
  | .saveReq b c :: o => (b, c) :: saveRequests o
  | .raised _ :: o => saveRequests o

/-- The durable snapshot when every request has been performed: the pair of the last one (42_wallet_store.md R165). -/
def durablePair (o : List Output) : Option (Nat × Nat) := (saveRequests o).getLast?

/-! ## What a command leaves behind -/

/-- The state after a command whose response is `r` and whose error conditions are `raised`: the wallet takes the
response's pair, the outputs are the conditions, the save request of a change and, where the response is longer than a
frame can carry, `PayloadTooLarge`; the frame is queued, or `TX_TOOLARGE` is set (43_command_processor.md R180, R193).
Everything else is as it was. -/
def afterCommand (s : State) (r : Response) (raised : List ErrorCondition) : State :=
  let out := raised.map Output.raised ++ if r.changed then [Output.saveReq r.balance r.pulseCount] else []
  match encodeFrame (serialize r) with
  | some f =>
    { s with bal := r.balance, cnt := r.pulseCount, txq := f, txph := .send, outputs := s.outputs ++ out }
  | none =>
    { s with
      bal := r.balance, cnt := r.pulseCount, status := s.status ||| 2
      outputs := s.outputs ++ (out ++ [.raised (.payloadTooLarge (serialize r).length)]) }

/-- Whether a command changes the wallet: the four rows of 43_command_processor.md R193. -/
def commandChanges : Instr → State → Bool
  | .getBalance, _ => false
  | .getStatus, _ => false
  | .getCoinCount, _ => false
  | .addBalance a, s => (amount s.cfg a).any fun n => decide (s.bal + n ≤ s.cfg.balMax)
  | .subBalance a, s => (amount s.cfg a).any fun n => decide (n ≤ s.bal)
  | .resetBalance, _ => true
  | .resetCount, _ => true
  | .unknown _, _ => false

/-! ## The payloads in a byte string -/

/-- The payloads that repeated calls of `decode` yield, at most `n` of them, and the buffer that is left. -/
def payloadsWithin : Nat → Bytes → List Bytes × Bytes
  | 0, buf => ([], (decodeFrame buf).buffer)
  | n + 1, buf =>
    match (decodeFrame buf).payload with
    | none => ([], (decodeFrame buf).buffer)
    | some p =>
      (p :: (payloadsWithin n (decodeFrame buf).buffer).1, (payloadsWithin n (decodeFrame buf).buffer).2)

/-- Every payload that `DEC` can yield from a buffer with no further byte, and the buffer that is left then. Each one
consumes at least 3 bytes, so `buf.length` calls are enough. -/
def payloadsOf (buf : Bytes) : List Bytes × Bytes := payloadsWithin buf.length buf

/-- The commands received and not yet executed, the next one first. -/
def pendingPayloads (s : State) : List Bytes := s.slot.toList ++ (payloadsOf s.rxbuf).1

/-! ## Runs -/

/-- `n` steps of the machine, stopping where it stops: the host's `Host.Core.run` of this machine. -/
def runSteps : Nat → State → Host.Outcome State Fault Refusal
  | 0, s => .next s
  | n + 1, s =>
    match step s with
    | .next t => runSteps n t
    | .fault r => .fault r
    | .refused r => .refused r

/-- The state after an offered step; `fire` answers a next state always (60_exceptions.md R240). -/
def fireState (e : Event) (s : State) : State :=
  match fire e s with
  | .next t => t
  | .fault _ => s
  | .refused _ => s

/-- The state after a finite run of offered steps. -/
def runEvents (es : List Event) (s : State) : State := es.foldl (fun s e => fireState e s) s

/-- The steps that send what is queued: the direction line rises if it is there and low, every byte is emitted, and the
frame is finished (40_frame_codec.md R111 to R114). -/
def sendSchedule (s : State) : List Event :=
  (if s.cfg.hasDir && !s.dir then [.txBegin] else []) ++ List.replicate s.txq.length .txByte ++ [.txEnd]

/-- One edge and its service, for each clock reading. -/
def edgesAt (times : List Nat) : List Event := times.flatMap fun t => [.edge, .pulse t]

/-- The state at position `n` of an infinite run. -/
def stateAt (run : Nat → Event) (s : State) : Nat → State
  | 0 => s
  | n + 1 => fireState (run n) (stateAt run s n)

/-- The names of the steps (00_scope.md R11). -/
inductive StepName where
  | rxIn | dec | txBegin | txByte | txEnd | edge | pulse | cmd | reset | boot
deriving DecidableEq, Repr

/-- The step an event is. -/
def stepName : Event → StepName
  | .rxIn _ => .rxIn
  | .dec => .dec
  | .txBegin => .txBegin
  | .txByte => .txByte
  | .txEnd => .txEnd
  | .edge => .edge
  | .pulse _ => .pulse
  | .cmd => .cmd
  | .reset => .reset
  | .boot _ => .boot

/-- The steps the block itself takes; a byte, an edge and a reset come from outside at will (10_state.md R41). -/
def isOwnStep : StepName → Bool
  | .rxIn => false
  | .dec => true
  | .txBegin => true
  | .txByte => true
  | .txEnd => true
  | .edge => false
  | .pulse => true
  | .cmd => true
  | .reset => false
  | .boot => true

/-- Weak fairness: a step of the block that stays enabled fires eventually (20_memory.md R56). -/
def WeaklyFair (run : Nat → Event) (s : State) : Prop :=
  ∀ k, isOwnStep k = true → ∀ n,
    (∀ m, n ≤ m → ∃ e, stepName e = k ∧ enabled e (stateAt run s m) = true) →
      ∃ m, n ≤ m ∧ stepName (run m) = k ∧ enabled (run m) (stateAt run s m) = true

end Sys2Proof.Machine
end

