-- ==== Sys2Proof/Certificates/Slice0/Obligations.lean ====
section
/-! DEFINITION. The statements for the provers. Each docstring names the rule of spec/ a statement formalises; a
statement about the model's own choice names its log entry. -/

open Sys2Proof Sys2Proof.Machine

/-! ## The command encoding (30_encoding.md) -/

/-- R76, R77, R80: every command that some payload of at most 255 bytes stands for is read back from its own bytes,
every byte of its text kept. -/
def Obligations.ParseOfEncodeGivesTheCommand : Prop :=
  ∀ i : Instr, i.wellFormed = true → parse (encode i) = i ∧ decodeBytes (encode i) = .ok i

/-- R77, R80, R81: every payload stands for a command, and that command's bytes are the trimmed payload; a payload a
frame can carry (at most 255 bytes) stands for a well-formed command. -/
def Obligations.EncodeOfParseGivesTheTrimmedPayload : Prop :=
  ∀ p : Bytes, encode (parse p) = trim p ∧ (p.length ≤ 255 → (parse p).wellFormed = true)

/-- R80, R87: the trimmed payload selects the command, exactly on the five keywords and by its first 12 bytes on the
two amount commands; a payload is unknown just when none of these matches. -/
def Obligations.ParseSelectsTheTableRow : Prop :=
  ∀ p : Bytes,
    (parse p = .getBalance ↔ trim p = kwGetBalance) ∧
    (parse p = .getStatus ↔ trim p = kwGetStatus) ∧
    (parse p = .getCoinCount ↔ trim p = kwGetCoinCount) ∧
    (parse p = .resetBalance ↔ trim p = kwResetBalance) ∧
    (parse p = .resetCount ↔ trim p = kwResetCount) ∧
    (∀ a, parse p = .addBalance a ↔ trim p = kwAddBalance ++ a) ∧
    (∀ a, parse p = .subBalance a ↔ trim p = kwSubBalance ++ a) ∧
    (∀ t, parse p = .unknown t ↔
      t = trim p ∧ t ∉ [kwGetBalance, kwGetStatus, kwGetCoinCount, kwResetBalance, kwResetCount] ∧
        (∀ a, t ≠ kwAddBalance ++ a) ∧ ∀ a, t ≠ kwSubBalance ++ a)

/-- R77: what is taken away is whitespace at the two ends, all of it and nothing else; whitespace is the six bytes of
`WS`. The two texts of the rule follow: `ADD_BALANCE = 5` is unknown, and `ADD_BALANCE= 5` has the amount text ` 5`,
which is an invalid amount. -/
def Obligations.TrimRemovesOuterWhitespaceOnly : Prop :=
  (∀ b : Byte, isWhitespace b = true ↔ b.toNat ∈ [0x09, 0x0A, 0x0B, 0x0C, 0x0D, 0x20]) ∧
  (∀ p : Bytes, ∃ before after, p = before ++ trim p ++ after ∧
    (∀ b ∈ before, isWhitespace b = true) ∧ (∀ b ∈ after, isWhitespace b = true) ∧
    (∀ b ∈ (trim p).head?, isWhitespace b = false) ∧ (∀ b ∈ (trim p).getLast?, isWhitespace b = false)) ∧
  parse (kwAddBalance.take 11 ++ [0x20, 0x3D, 0x20, 0x35]) =
    .unknown (kwAddBalance.take 11 ++ [0x20, 0x3D, 0x20, 0x35]) ∧
  parse (kwAddBalance ++ [0x20, 0x35]) = .addBalance [0x20, 0x35] ∧ ∀ c, amount c [0x20, 0x35] = none

/-- R79: an amount text is one or more ASCII digits, its value is their exact decimal value, and it is an amount just
when that value is at most `BAL_MAX`; any other text is no amount, `-5` and `+3` among them. -/
def Obligations.AmountIsExactBoundedDecimal : Prop :=
  (∀ (c : Config) (a : Bytes) (n : Nat),
    amount c a = some n ↔
      1 ≤ a.length ∧ (∀ b ∈ a, 0x30 ≤ b.toNat ∧ b.toNat ≤ 0x39) ∧
        n = ∑ k ∈ Finset.range a.length, ((a.getD k 0).toNat - 0x30) * 10 ^ (a.length - 1 - k) ∧ n ≤ c.balMax) ∧
  ∀ c, amount c [0x2D, 0x35] = none ∧ amount c [0x2B, 0x33] = none

/-- R10 (`dec`) and R79: `dec v` is a string of digits with no leading zero (but for 0 itself), and it is read back as
`v` wherever `v` fits, leading zeros before it or none. -/
def Obligations.DecimalTextIsShortestAndReadsBack : Prop :=
  (∀ v : Nat, (∀ b ∈ dec v, isDigit b = true) ∧ digitsValue (dec v) = v ∧
    (0 < v → (dec v).head? ≠ some 0x30) ∧ (v = 0 → dec v = [0x30])) ∧
  ∀ (c : Config) (v zeros : Nat), v ≤ c.balMax → amount c (List.replicate zeros 0x30 ++ dec v) = some v

/-- R80, R87: one payload for each row of opcode_table.json is read as the row's command; `007` is the amount text of
the first amount command and `5` that of the second, and the payload of no bytes is unknown. That a payload is written
here as one number, its first byte the least significant, is the model's convention and not the spec's (log entry 4). -/
def Obligations.TableRowsDecode : Prop :=
  decodeTableWord 88 0x45434E414C41425F544547 = some .getBalance ∧
  decodeTableWord 80 0x5355544154535F544547 = some .getStatus ∧
  decodeTableWord 112 0x544E554F435F4E494F435F544547 = some .getCoinCount ∧
  decodeTableWord 120 0x3730303D45434E414C41425F444441 = some (.addBalance [0x30, 0x30, 0x37]) ∧
  decodeTableWord 104 0x353D45434E414C41425F425553 = some (.subBalance [0x35]) ∧
  decodeTableWord 104 0x45434E414C41425F5445534552 = some .resetBalance ∧
  decodeTableWord 88 0x544E554F435F5445534552 = some .resetCount ∧
  decodeTableWord 0 0 = some (.unknown [])

/-- R85: while the longest decimal text `D` of the two maxima is at most 38 digits and neither fixed text is longer
than `151 - 3·D`, every command's response is sent whole: its payload has at most 255 bytes, its frame is queued, and
no flag is set. (R85 gives the bound without `D ≤ 38`; the next statement is about that.) The spec marks R85 as its
own inference from R83 and R84. -/
def Obligations.ResponsesFitInOneFrame : Prop :=
  ∀ (i : Instr) (s : State) (d : Nat), s.Wf →
    d = max (dec s.cfg.balMax).length (dec s.cfg.cntMax).length → d ≤ 38 →
    s.cfg.statusText.length + 3 * d ≤ 151 → s.cfg.resetCountAck.length + 3 * d ≤ 151 →
    ∃ (t : State) (payload : Bytes), exec i s = .next t ∧ payload.length ≤ 255 ∧ encodeFrame payload = some t.txq ∧
      t.txph = .send ∧ t.status = s.status

/-- R85 as it stands, for every `D ≤ 43`: "every response payload is at most 255 bytes and `PayloadTooLarge` cannot
occur". Expected to FAIL: with 40-digit registers an `ADD_BALANCE` can answer with four 40-digit numbers, 263 bytes in
all (log entry 7). The spec marks that sentence as its own inference from R83 and R84. -/
def Obligations.ResponsesFitAtEveryWidthR85Allows : Prop :=
  ∀ (i : Instr) (s : State) (d : Nat), s.Wf →
    d = max (dec s.cfg.balMax).length (dec s.cfg.cntMax).length → d ≤ 43 →
    s.cfg.statusText.length + 3 * d ≤ 151 → s.cfg.resetCountAck.length + 3 * d ≤ 151 →
    ∃ t : State, exec i s = .next t ∧ t.status = s.status

/-! ## The commands (43_command_processor.md) -/

/-- R182: `GET_BALANCE` is the exact payload after trim; it answers `success` with the balance's decimal text (`0` for
0), changes nothing of the wallet, and makes no save request. -/
def Obligations.GetBalanceAnswersTheBalance : Prop :=
  (∀ p : Bytes, parse p = .getBalance ↔ trim p = kwGetBalance) ∧
  (∀ s : State, exec .getBalance s = .next (afterCommand s ⟨.success, s.bal, s.cnt, dec s.bal, false, 0⟩ [])) ∧
  dec 0 = [0x30]

/-- R183: `GET_STATUS` answers `success` with the parameter `STATUS_TEXT`, whatever the state. -/
def Obligations.GetStatusAnswersTheFixedText : Prop :=
  (∀ p : Bytes, parse p = .getStatus ↔ trim p = kwGetStatus) ∧
  ∀ s : State, exec .getStatus s =
    .next (afterCommand s ⟨.success, s.bal, s.cnt, s.cfg.statusText, false, 0⟩ [])

/-- R184: `GET_COIN_COUNT` answers `success` with the count's decimal text. `ADD_BALANCE` and `SUB_BALANCE` never
change the count. -/
def Obligations.GetCoinCountAnswersTheCount : Prop :=
  (∀ p : Bytes, parse p = .getCoinCount ↔ trim p = kwGetCoinCount) ∧
  (∀ s : State, exec .getCoinCount s =
    .next (afterCommand s ⟨.success, s.bal, s.cnt, dec s.cnt, false, 0⟩ [])) ∧
  ∀ (s : State) (a : Bytes), (∃ t, exec (.addBalance a) s = .next t ∧ t.cnt = s.cnt) ∧
    ∃ t, exec (.subBalance a) s = .next t ∧ t.cnt = s.cnt

/-- R185, R186: a valid amount is added where the sum fits, with `changed` even for 0; where it does not, nothing
changes (the balance is neither wrapped nor clamped), `BalanceOverflow` is raised and the answer is an error with the
refused amount. The amount may have leading zeros: `007` is 7. -/
def Obligations.AddBalanceAddsOrRefuses : Prop :=
  (∀ (p a : Bytes), parse p = .addBalance a ↔ trim p = kwAddBalance ++ a) ∧
  (∀ (s : State) (a : Bytes) (n : Nat), amount s.cfg a = some n → s.bal + n ≤ s.cfg.balMax →
    exec (.addBalance a) s =
      .next (afterCommand s ⟨.success, s.bal + n, s.cnt, dec (s.bal + n), true, n⟩ [])) ∧
  (∀ (s : State) (a : Bytes) (n : Nat), amount s.cfg a = some n → s.cfg.balMax < s.bal + n →
    exec (.addBalance a) s =
      .next (afterCommand s ⟨.error, s.bal, s.cnt, msgBalanceOverflow, false, n⟩ [.balanceOverflow n])) ∧
  ∀ c : Config, 7 ≤ c.balMax → amount c [0x30, 0x30, 0x37] = some 7

/-- R187, R188: a valid amount is subtracted where the balance suffices, with `changed` even for 0 and down to 0
exactly; where it does not, nothing changes (it is refused, not clamped), `InsufficientBalance` is raised and the answer
is an error with the refused amount. -/
def Obligations.SubBalanceSubtractsOrRefuses : Prop :=
  (∀ (p a : Bytes), parse p = .subBalance a ↔ trim p = kwSubBalance ++ a) ∧
  (∀ (s : State) (a : Bytes) (n : Nat), amount s.cfg a = some n → n ≤ s.bal →
    exec (.subBalance a) s =
      .next (afterCommand s ⟨.success, s.bal - n, s.cnt, dec (s.bal - n), true, n⟩ [])) ∧
  ∀ (s : State) (a : Bytes) (n : Nat), amount s.cfg a = some n → s.bal < n →
    exec (.subBalance a) s =
      .next (afterCommand s ⟨.error, s.bal, s.cnt, msgInsufficientBalance, false, n⟩ [.insufficientBalance n])

/-- R189: `RESET_BALANCE` zeroes the balance and answers `0` with `changed`, even at 0; the count and `LAST` stay. -/
def Obligations.ResetBalanceZeroesTheBalance : Prop :=
  (∀ p : Bytes, parse p = .resetBalance ↔ trim p = kwResetBalance) ∧
  ∀ s : State, exec .resetBalance s = .next (afterCommand s ⟨.success, 0, s.cnt, [0x30], true, 0⟩ [])

/-- R190: `RESET_COUNT` zeroes the count and answers the parameter `RESET_COUNT_ACK` with `changed`, even at 0; the
balance and `LAST` stay. -/
def Obligations.ResetCountZeroesTheCount : Prop :=
  (∀ p : Bytes, parse p = .resetCount ↔ trim p = kwResetCount) ∧
  ∀ s : State, exec .resetCount s =
    .next (afterCommand s ⟨.success, s.bal, 0, s.cfg.resetCountAck, true, 0⟩ [])

/-- R191: an amount command whose text is no amount changes nothing, raises `InvalidAmount` and answers an error with
amount 0, at every balance. The empty text, a sign, an inner space, any byte that is no digit and a value above
`BAL_MAX` are no amounts. -/
def Obligations.MalformedAmountIsRefused : Prop :=
  (∀ (s : State) (a : Bytes), amount s.cfg a = none →
    exec (.addBalance a) s =
        .next (afterCommand s ⟨.error, s.bal, s.cnt, msgInvalidAmount, false, 0⟩ [.invalidAmount a]) ∧
      exec (.subBalance a) s =
        .next (afterCommand s ⟨.error, s.bal, s.cnt, msgInvalidAmount, false, 0⟩ [.invalidAmount a])) ∧
  ∀ (c : Config) (a : Bytes),
    (a = [] ∨ (∃ b ∈ a, isDigit b = false) ∨ c.balMax < digitsValue a) → amount c a = none

/-- R192: an unknown command changes nothing, raises `UnknownCommand` with its text and answers an error that does not
echo it. -/
def Obligations.UnknownCommandIsAnswered : Prop :=
  ∀ (s : State) (t : Bytes), exec (.unknown t) s =
    .next (afterCommand s ⟨.error, s.bal, s.cnt, msgUnknownCommand, false, 0⟩ [.unknownCommand t])

/-- R195: the three queries leave the wallet and `LAST` unchanged and make no save request, and the same query given
again, once the first answer is sent, queues the same frame. The spec marks R195 ("leave `BAL`, `CNT` and `LAST`
unchanged, and issue no save request") as its own inference from R182 to R184. -/
def Obligations.QueriesAreIdempotent : Prop :=
  ∀ (q : Instr) (s : State), q ∈ [Instr.getBalance, .getStatus, .getCoinCount] → s.txq = [] →
    ∃ t u : State, exec q s = .next t ∧ t.bal = s.bal ∧ t.cnt = s.cnt ∧ t.last = s.last ∧
      saveRequests t.outputs = saveRequests s.outputs ∧
      exec q { t with txq := [], txph := .idle, dir := false } = .next u ∧ u.txq = t.txq

/-- R193: a command issues exactly one save request, of the wallet as the command leaves it, if it is one of the four
that change the wallet, and none otherwise, whether or not its response fits in a frame. -/
def Obligations.SaveRequestExactlyOnChange : Prop :=
  ∀ (i : Instr) (s : State), ∃ t : State, exec i s = .next t ∧
    saveRequests t.outputs = saveRequests s.outputs ++ if commandChanges i s then [(t.bal, t.cnt)] else []

/-- R22, R194, R196, R241: a command moves the balance only as its row says. It grows by the exact amount of an
`ADD_BALANCE` and stays within `BAL_MAX`, it falls by the exact amount of a `SUB_BALANCE` that it covers, or
`RESET_BALANCE` zeroes it; the count stays, but for `RESET_COUNT`. The spec marks R194 ("no step computes a negative
value into `BAL`") as its own inference from R185 to R192. -/
def Obligations.CommandsMoveTheWalletExactly : Prop :=
  ∀ (i : Instr) (s : State), s.bal ≤ s.cfg.balMax → ∃ t : State, exec i s = .next t ∧ t.bal ≤ s.cfg.balMax ∧
    (s.bal < t.bal → ∃ a n, i = .addBalance a ∧ amount s.cfg a = some n ∧ t.bal = s.bal + n) ∧
    (t.bal < s.bal → (∃ a n, i = .subBalance a ∧ amount s.cfg a = some n ∧ t.bal + n = s.bal) ∨
      (i = .resetBalance ∧ t.bal = 0)) ∧
    (t.cnt ≠ s.cnt → i = .resetCount ∧ t.cnt = 0)

/-! ## The CMD step and the machine's step -/

/-- R180: when the environment lets `CMD` fire next, the block is booted, a payload waits and no response is being
sent, the step runs the command decoded from the payload, with the payload taken from `SLOT` and the environment's
offer used up. The form of the offers is the model's choice (log entry 2). -/
def Obligations.StepRunsTheDecodedCommand : Prop :=
  ∀ (s : State) (p : Bytes) (later : List Event), s.cfg.Legal → s.agenda = .cmd :: later → s.booted = true →
    s.slot = some p → s.txph = .idle →
    step s = exec (parse p) { s with slot := none, agenda := later }

/-- R34, R180: `CMD` waits, and nothing at all changes, before the boot restore, while no payload waits, and while a
response is being sent. -/
def Obligations.CommandWaits : Prop :=
  ∀ s : State, (s.booted = false ∨ s.slot = none ∨ s.txph = .send) →
    enabled .cmd s = false ∧ fire .cmd s = .next s

/-- R11, R56, R262: a step of the machine is the step of an agent that the environment offers next, on a legal
configuration, and an offered step that is not enabled changes nothing. Where the agenda is empty the offer is the free
value `Config.environment`, of which nothing is known (the model's form of the free interleaving, log entry 2). An
illegal configuration is refused, under a name of the model's choice (log entry 6). -/
def Obligations.StepFollowsTheEnvironment : Prop :=
  (∀ (s : State) (e : Event) (later : List Event), s.cfg.Legal → s.agenda = e :: later →
    step s = fire e { s with agenda := later }) ∧
  (∀ s : State, s.cfg.Legal → s.agenda = [] →
    step s = fire (Config.environment s.tick) { s with tick := s.tick + 1 }) ∧
  (∀ (e : Event) (s : State), enabled e s = false → fire e s = .next s) ∧
  ∀ s : State, ¬ s.cfg.Legal → step s = .refused .illegalConfiguration

/-- R100, R105, R108, R109, R180 together: from a booted, idle block, the bytes of one frame on the line, then `DEC`,
then `CMD`, are exactly the execution of the command that the frame's payload stands for. The form of the offers is
the model's choice (log entry 2). -/
def Obligations.FrameOnTheLineRunsItsCommand : Prop :=
  ∀ (s : State) (p f : Bytes) (later : List Event), s.cfg.Legal → s.booted = true → s.txph = .idle →
    s.slot = none → s.rxbuf = [] → encodeFrame p = some f →
    s.agenda = f.map Event.rxIn ++ [.dec, .cmd] ++ later →
    runSteps (f.length + 2) s = exec (parse p) { s with agenda := later }

/-! ## FrameCodec (40_frame_codec.md, 30_encoding.md) -/

/-- R70, R71, R72, R100, R101: a payload of at most 255 bytes gives the frame of its length plus 3 bytes: the marker,
the length, the payload unchanged, and the sum of length and payload modulo 256. A longer payload gives no frame. -/
def Obligations.FrameLayoutIsExact : Prop :=
  ∀ p : Bytes,
    (p.length ≤ 255 → ∃ f, encodeFrame p = some f ∧ f.length = p.length + 3 ∧
      (f.getD 0 0).toNat = 0x7E ∧ (f.getD 1 0).toNat = p.length ∧ (f.drop 2).take p.length = p ∧
      (f.getD (p.length + 2) 0).toNat = (p.length + sumBytes p) % 256) ∧
    (255 < p.length → encodeFrame p = none)

/-- R72's formula over one payload: another length number with the same payload, and one changed byte of the payload
with the same length number, give another checksum; the order of the payload's bytes does not matter. This says nothing
of a frame whose length byte is wrong, where the payload's end moves with it and the candidate can pass (log entry 16).
The spec marks the sentences of R72 on errors as its own inference from the formula. -/
def Obligations.ChecksumFormulaSeparatesOneChange : Prop :=
  (∀ (length length' : Nat) (p : Bytes), length ≤ 255 → length' ≤ 255 → length ≠ length' →
    checksum length p ≠ checksum length' p) ∧
  (∀ (length k : Nat) (p : Bytes) (b : Byte), k < p.length → p.getD k 0 ≠ b →
    checksum length (p.set k b) ≠ checksum length p) ∧
  ∀ (length : Nat) (p q : Bytes), p.Perm q → checksum length p = checksum length q

/-- R105, R115 item 1: a frame at the front of the buffer is decoded to its payload, with nothing failed, and exactly
its bytes are consumed; so on an empty buffer decoding is the inverse of encoding. -/
def Obligations.DecodeInvertsEncode : Prop :=
  ∀ (p f after : Bytes), encodeFrame p = some f → decodeFrame (f ++ after) = ⟨after, some p, []⟩

/-- R105, R106, R115 item 5: every payload that decoding yields stands in the buffer as a whole frame, and everything
before that frame is dropped while everything after it stays. The spec marks R115 as its own inference from R100 to
R109. -/
def Obligations.DecodedPayloadWasAFrame : Prop :=
  ∀ (buf p : Bytes), (decodeFrame buf).payload = some p →
    ∃ before f, encodeFrame p = some f ∧ buf = before ++ f ++ (decodeFrame buf).buffer

/-- R103: bytes that hold no marker and stand before the first one are discarded and leave no trace in any later call,
and a buffer with no marker becomes empty. -/
def Obligations.GarbageBeforeTheMarkerIsDiscarded : Prop :=
  (∀ (garbage buf : Bytes), (0x7E : Byte) ∉ garbage → decodeFrame (garbage ++ buf) = decodeFrame buf) ∧
  ∀ garbage : Bytes, (0x7E : Byte) ∉ garbage → decodeFrame garbage = ⟨[], none, []⟩

/-- R104: a candidate with fewer than 3 bytes, or fewer than its length byte asks for, waits with its bytes kept
exactly, only the garbage before it gone. A waiting buffer is empty or starts with the marker, and has fewer than 258
bytes. The spec marks the bound 258 as its own inference from R104 and R71. -/
def Obligations.IncompleteCandidateWaits : Prop :=
  (∀ (garbage rest : Bytes), (0x7E : Byte) ∉ garbage →
    ((0x7E :: rest : Bytes).length < 3 ∨ (0x7E :: rest : Bytes).length < (rest.getD 0 0).toNat + 3) →
    decodeFrame (garbage ++ 0x7E :: rest) = ⟨0x7E :: rest, none, []⟩) ∧
  ∀ buf : Bytes, (decodeFrame buf).payload = none →
    (decodeFrame buf).buffer.length < 258 ∧
      ((decodeFrame buf).buffer = [] ∨ (decodeFrame buf).buffer.head? = some 0x7E)

/-- R106, R231: a complete candidate whose checksum fails loses exactly its marker; the search goes on from its length
byte in the same call, and one `FrameCorrupt` is raised for it. -/
def Obligations.MismatchDropsTheMarkerOnly : Prop :=
  ∀ (length cs : Byte) (payload after : Bytes), payload.length = length.toNat → cs ≠ checksum length.toNat payload →
    decodeFrame (0x7E :: length :: payload ++ cs :: after) =
      ⟨(decodeFrame (length :: payload ++ cs :: after)).buffer, (decodeFrame (length :: payload ++ cs :: after)).payload,
        length.toNat :: (decodeFrame (length :: payload ++ cs :: after)).corrupt⟩

/-- R115 item 4: a frame whose checksum byte is corrupted, with no marker among its bytes after the first, is skipped
and the frame after it is decoded. The spec marks R115 as its own inference from R100 to R109. -/
def Obligations.CorruptedFrameIsSkipped : Prop :=
  ∀ (p q f after : Bytes) (cs : Byte), p.length ≤ 255 → cs ≠ checksum p.length p →
    (0x7E : Byte) ∉ BitVec.ofNat 8 p.length :: p ++ [cs] → encodeFrame q = some f →
    decodeFrame (0x7E :: BitVec.ofNat 8 p.length :: p ++ [cs] ++ f ++ after) = ⟨after, some q, [p.length]⟩

/-- R115 item 2: no proper beginning of a frame is decoded or changed, so a frame that arrives byte by byte yields its
payload only at its last byte. The spec marks R115 as its own inference from R100 to R109. -/
def Obligations.PartialFrameYieldsNothing : Prop :=
  ∀ (p f : Bytes) (k : Nat), encodeFrame p = some f → k < f.length →
    decodeFrame (f.take k) = ⟨f.take k, none, []⟩

/-- R115 item 3: the payloads a byte stream yields do not depend on when `DEC` runs between arrivals. Whatever bytes
have come, decoding them and then the rest gives what decoding all of them gives. The spec marks R115 as its own
inference from R100 to R109. -/
def Obligations.PayloadsAreScheduleIndependent : Prop :=
  ∀ buf more : Bytes,
    payloadsOf (buf ++ more) =
      ((payloadsOf buf).1 ++ (payloadsOf ((payloadsOf buf).2 ++ more)).1, (payloadsOf ((payloadsOf buf).2 ++ more)).2)

/-- R59, R109, R115 item 5, R180: the received commands are executed once each and in stream order. `DEC` leaves the
sequence of pending payloads as it is, `CMD` takes its first, a received byte that is not lost only adds at its end,
and no other step but reset touches it. The spec marks R59 and R115 as its own inferences from the steps' rules. -/
def Obligations.PendingPayloadsKeepTheirOrder : Prop :=
  ∀ (e : Event) (s : State), e ≠ .reset → ∃ t : State, fire e s = .next t ∧
    (e = .cmd → enabled .cmd s = true → ∃ p, s.slot = some p ∧ pendingPayloads s = p :: pendingPayloads t) ∧
    (∀ b, e = .rxIn b → s.rxbuf.length < s.cfg.rxCap →
      pendingPayloads t = s.slot.toList ++ (payloadsOf (s.rxbuf ++ [b])).1 ∧
        ∃ new, pendingPayloads t = pendingPayloads s ++ new) ∧
    (∀ b, e = .rxIn b → s.cfg.rxCap ≤ s.rxbuf.length → pendingPayloads t = pendingPayloads s) ∧
    (stepName e ≠ .cmd → stepName e ≠ .rxIn → pendingPayloads t = pendingPayloads s)

/-- R108, R239: `RX_IN` is always enabled; the byte is appended while `RXBUF` has room, and otherwise it is lost,
`RX_OVERRUN` is set and `RxOverrun` is raised. The buffer can fill only while `DEC` cannot drain it: with `SLOT` empty
and `DEC` run out, the next byte always fits. The spec marks that last sentence as its own inference from R104. -/
def Obligations.ReceivedByteIsKeptOrFlagged : Prop :=
  (∀ (b : Byte) (s : State), enabled (.rxIn b) s = true ∧
    (s.rxbuf.length < s.cfg.rxCap → fire (.rxIn b) s = .next { s with rxbuf := s.rxbuf ++ [b] }) ∧
    (s.cfg.rxCap ≤ s.rxbuf.length →
      fire (.rxIn b) s =
        .next { s with status := s.status ||| 1, outputs := s.outputs ++ [.raised (.rxOverrun b)] })) ∧
  ∀ s : State, s.cfg.Legal → s.slot = none → enabled .dec s = false →
    s.rxbuf.length < 258 ∧ s.rxbuf.length < s.cfg.rxCap

/-- R109: `DEC` is enabled exactly when `SLOT` is empty and `decode` changes the buffer or yields; it then replaces the
buffer, fills `SLOT` with what is yielded, and nothing else changes but the record of failed candidates. -/
def Obligations.DecoderStepMakesProgress : Prop :=
  ∀ s : State,
    (enabled .dec s = true ↔
      s.slot = none ∧ ¬ ((decodeFrame s.rxbuf).buffer = s.rxbuf ∧ (decodeFrame s.rxbuf).payload = none)) ∧
    (enabled .dec s = true →
      fire .dec s = .next
        { s with
          rxbuf := (decodeFrame s.rxbuf).buffer
          slot := (decodeFrame s.rxbuf).payload
          outputs := s.outputs ++ (decodeFrame s.rxbuf).corrupt.map fun n => .raised (.frameCorrupt n) })

/-- R112: a byte of the queue is emitted, in queue order, while a frame is being sent and the line is up or absent. -/
def Obligations.TransmitEmitsTheFirstByte : Prop :=
  (∀ s : State, enabled .txByte s = true ↔
    s.txph = .send ∧ s.txq ≠ [] ∧ (s.dir = true ∨ s.cfg.hasDir = false)) ∧
  ∀ (s : State) (b : Byte) (q : Bytes), enabled .txByte s = true → s.txq = b :: q →
    fire .txByte s = .next { s with txq := q, outputs := s.outputs ++ [.emit b] }

/-- R111, R113: the direction line rises before the first byte, where there is one, and falls when the frame is drained,
whereupon the phase is `IDLE`. (Their settle times are real time, which the model does not have: log entry 5.) -/
def Obligations.TransmitRaisesAndLowersTheLine : Prop :=
  (∀ s : State, enabled .txBegin s = true ↔
    s.txph = .send ∧ s.dir = false ∧ s.cfg.hasDir = true ∧ s.txq ≠ []) ∧
  (∀ s : State, enabled .txBegin s = true → fire .txBegin s = .next { s with dir := true }) ∧
  (∀ s : State, enabled .txEnd s = true ↔ s.txph = .send ∧ s.txq = []) ∧
  ∀ s : State, enabled .txEnd s = true → fire .txEnd s = .next { s with dir := false, txph := .idle }

/-- R114: without a direction line `TX_BEGIN` never fires, `DIR` stays 0 through every step, and `TX_BYTE` is enabled as
soon as a frame is being sent. -/
def Obligations.NoDirectionLineNeedsNoTurnaround : Prop :=
  ∀ s : State, s.cfg.hasDir = false → s.dir = false →
    enabled .txBegin s = false ∧
    (∀ e : Event, ∃ t, fire e s = .next t ∧ t.dir = false) ∧
    (s.txph = .send → s.txq ≠ [] → enabled .txByte s = true)

/-- R59, R111 to R114: from any reachable shape of the block with a frame to send, the transmitter's own steps emit
exactly the queued bytes in order and return the block to listening, with nothing else changed. The spec marks R59's
"TX emits a frame's bytes in `TXQ` order" as its own inference from the enabling conditions. -/
def Obligations.QueuedFrameIsSentWhole : Prop :=
  ∀ s : State, s.Wf → s.txph = .send →
    runEvents (sendSchedule s) s =
      { s with txq := [], txph := .idle, dir := false, outputs := s.outputs ++ s.txq.map .emit }

/-- R56, R60, R271: under weak fairness, and with no further reset, a payload that waits in a booted block is taken by
`CMD` in the end, however the environment interleaves bytes, edges and services. That the environment's steps need no
fairness is the model's reading (log entry 13). -/
def Obligations.WeakFairnessServesEveryCommand : Prop :=
  ∀ (run : Nat → Event) (s : State) (n : Nat) (p : Bytes), WeaklyFair run s →
    (∀ m, n ≤ m → run m ≠ .reset) → (stateAt run s n).booted = true → (stateAt run s n).slot = some p →
    ∃ m, n ≤ m ∧ run m = .cmd ∧ enabled .cmd (stateAt run s m) = true ∧ (stateAt run s m).slot = some p

/-! ## PulseCounter (41_pulse_counter.md) -/

/-- R140, R141: a rising edge is captured at any time, booted or not, and changes `LATCH` only; one that finds the latch
set changes nothing. -/
def Obligations.EdgesAreCapturedAndCoalesce : Prop :=
  (∀ s : State, enabled .edge s = true ∧ fire .edge s = .next { s with latch := true }) ∧
  ∀ s : State, s.latch = true → fire .edge s = .next s

/-- R144, R146: an accepted edge adds exactly one credit to each register that is below its maximum, leaves one that is
at its maximum there, and keeps its time; it makes no output. -/
def Obligations.AcceptedEdgeAddsOneCredit : Prop :=
  ∀ (now : Nat) (s : State), enabled (.pulse now) s = true →
    (∀ t, s.last = some t → t + s.cfg.debounceWindowMs < now) →
    ∃ u : State, fire (.pulse now) s = .next u ∧
      u = { s with latch := false, clk := some now, last := some now, bal := u.bal, cnt := u.cnt } ∧
      (s.bal < s.cfg.balMax → u.bal = s.bal + 1) ∧ (s.bal = s.cfg.balMax → u.bal = s.cfg.balMax) ∧
      (s.cnt < s.cfg.cntMax → u.cnt = s.cnt + 1) ∧ (s.cnt = s.cfg.cntMax → u.cnt = s.cfg.cntMax)

/-- R145: a rejected edge zeroes both registers under policy `ZERO` and changes neither under `IGNORE`; under either
`LAST` is as it was, and there is no output. -/
def Obligations.RejectedEdgeFollowsThePolicy : Prop :=
  ∀ (now t : Nat) (s : State), enabled (.pulse now) s = true → s.last = some t → now ≤ t + s.cfg.debounceWindowMs →
    (s.cfg.rejectPolicy = .zero →
      fire (.pulse now) s = .next { s with latch := false, clk := some now, bal := 0, cnt := 0 }) ∧
    (s.cfg.rejectPolicy = .ignore →
      fire (.pulse now) s = .next { s with latch := false, clk := some now })

/-- R143, R149: the test is strict. An edge served exactly the window after the last accepted one is rejected, and one
served a millisecond later is accepted; with no accepted edge yet it is accepted. This holds for the window 0 too. -/
def Obligations.DebounceTestIsStrict : Prop :=
  ∀ (c : Config) (t now : Nat),
    debounceAccepts c none now = true ∧
    debounceAccepts c (some t) (t + c.debounceWindowMs) = false ∧
    debounceAccepts c (some t) (t + c.debounceWindowMs + 1) = true ∧
    (t ≤ now → (debounceAccepts c (some t) now = true ↔ c.debounceWindowMs < now - t))

/-- R142, R150, R34: an edge is served only when one is pending, the block is booted and the clock has not run
backwards; otherwise nothing changes. -/
def Obligations.PulseWaits : Prop :=
  ∀ (now : Nat) (s : State),
    (enabled (.pulse now) s = true ↔
      s.latch = true ∧ s.booted = true ∧ ∀ c, s.clk = some c → c ≤ now) ∧
    (enabled (.pulse now) s = false → fire (.pulse now) s = .next s)

/-- R40, R150: no step but reset takes the clock record back, and the last accepted edge never lies after it. -/
def Obligations.ClockNeverRunsBackwards : Prop :=
  ∀ (e : Event) (s : State), e ≠ .reset → ∃ t : State, fire e s = .next t ∧
    (∀ c, s.clk = some c → ∃ c', t.clk = some c' ∧ c ≤ c') ∧
    ((∀ x, s.last = some x → ∃ c, s.clk = some c ∧ x ≤ c) → ∀ x, t.last = some x → ∃ c, t.clk = some c ∧ x ≤ c)

/-- R148: a coin whose first edge is accepted and whose ringing edges, one or more, are all served within the debounce
window of it. Under `IGNORE` the whole burst adds exactly one credit; under `ZERO` it leaves both registers 0. The
spec marks R148 as its own inference from R143 to R145. -/
def Obligations.RingingGivesOneCreditUnderIgnore : Prop :=
  ∀ (s : State) (first ring : Nat) (ringing : List Nat), s.Wf → s.booted = true →
    (∀ c, s.clk = some c → c ≤ first) → (∀ t, s.last = some t → t + s.cfg.debounceWindowMs < first) →
    (first :: ring :: ringing).Pairwise (· ≤ ·) →
    (∀ t ∈ ring :: ringing, t ≤ first + s.cfg.debounceWindowMs) →
    ∃ u : State, u = runEvents (edgesAt (first :: ring :: ringing)) s ∧ u.last = some first ∧ u.latch = false ∧
      (s.cfg.rejectPolicy = .ignore →
        u.bal = min (s.bal + 1) s.cfg.balMax ∧ u.cnt = min (s.cnt + 1) s.cfg.cntMax) ∧
      (s.cfg.rejectPolicy = .zero → u.bal = 0 ∧ u.cnt = 0)

/-! ## WalletStore and reset (42_wallet_store.md, 70_reset_and_hazards.md) -/

/-- R160 to R164: `BOOT` fires once after a reset. An absent snapshot gives a zero wallet and a fresh save request; a
corrupt one, and a pair that does not fit, do that too and set and raise the fault; a valid pair is restored with no
save request. With `ZERO_BALANCE_AFTER_LOAD` the balance is then 0, and no save request follows. -/
def Obligations.BootRestoresTheWallet : Prop :=
  (∀ (r : RestoreResult) (s : State), enabled (.boot r) s = !s.booted) ∧
  (∀ s : State, s.booted = false →
    fire (.boot .absent) s =
      .next { s with bal := 0, cnt := 0, booted := true, outputs := s.outputs ++ [.saveReq 0 0] }) ∧
  (∀ (r : RestoreResult) (s : State), s.booted = false →
    (r = .corrupt ∨ ∃ b c, r = .valid b c ∧ (s.cfg.balMax < b ∨ s.cfg.cntMax < c)) →
    fire (.boot r) s =
      .next { s with
        bal := 0, cnt := 0, booted := true, status := s.status ||| 4
        outputs := s.outputs ++ [.raised .persistenceFailure, .saveReq 0 0] }) ∧
  ∀ (b c : Nat) (s : State), s.booted = false → b ≤ s.cfg.balMax → c ≤ s.cfg.cntMax →
    fire (.boot (.valid b c)) s =
      .next { s with bal := if s.cfg.zeroBalanceAfterLoad then 0 else b, cnt := c, booted := true }

/-- R42, R260: `RESET` is always enabled and gives every element of the block the value of R42, whatever it was; no save
request is issued, nor any other output. The configuration stays (R37). (That the outputs so far are kept is the
form in which the model says so: log entry 3.) -/
def Obligations.ResetSetsEveryElement : Prop :=
  ∀ s : State, enabled .reset s = true ∧ ∃ t : State, fire .reset s = .next t ∧
    t.bal = 0 ∧ t.cnt = 0 ∧ t.last = none ∧ t.latch = false ∧ t.rxbuf = [] ∧ t.slot = none ∧ t.txq = [] ∧
    t.txph = .idle ∧ t.dir = false ∧ t.status = 0 ∧ t.booted = false ∧ t.clk = none ∧
    t.cfg = s.cfg ∧ t.outputs = s.outputs

/-- R168: after a command that changed the wallet, the durable pair is the wallet; and once it is written, a reset and
a `BOOT` of it restore the wallet exactly, or with its balance 0 where `ZERO_BALANCE_AFTER_LOAD` is set. The spec
marks R168 as its own inference from R160, R164 and R165; the durable pair is the model's term for R165's last request
(log entry 14). -/
def Obligations.ChangedWalletSurvivesReset : Prop :=
  ∀ (i : Instr) (s : State), s.Wf → commandChanges i s = true →
    ∃ t : State, exec i s = .next t ∧ durablePair t.outputs = some (t.bal, t.cnt) ∧
      ∃ u : State, u = runEvents [.reset, .boot (.valid t.bal t.cnt)] t ∧
        u.bal = (if s.cfg.zeroBalanceAfterLoad then 0 else t.bal) ∧ u.cnt = t.cnt ∧ u.booted = true ∧
        saveRequests u.outputs = saveRequests t.outputs

/-! ## The whole machine -/

/-- The state after reset has the shape that every step keeps, under every legal configuration; the default one is
legal (R6, R42, R262). That the default configuration has a direction line is the model's choice (log entry 1). -/
def Obligations.ResetStateIsWellFormed : Prop :=
  (∀ c : Config, c.Legal → (State.resetWith c).Wf) ∧ State.reset.Wf

/-- R20 to R34, R42, R143, R150: every step keeps the state's shape, whatever the environment offers: the registers keep
their widths, the buffers their bounds, the queue is empty and the line low in phase `IDLE`, `LAST` never lies after the
clock, and before `BOOT` the wallet is as reset left it. -/
def Obligations.EveryStepKeepsTheStateWellFormed : Prop :=
  ∀ s t : State, s.Wf → step s = .next t → t.Wf

/-- R240, R244: nothing is fatal. On a legal configuration every step answers a next state, and so does every command in
every state; no fault exists. -/
def Obligations.NothingIsFatal : Prop :=
  (∀ (i : Instr) (s : State), ∃ t : State, exec i s = .next t) ∧
  (∀ (e : Event) (s : State), ∃ t : State, fire e s = .next t) ∧
  ∀ s : State, s.cfg.Legal → ∃ t : State, step s = .next t ∧ t.cfg = s.cfg

/-- R32, R240: a flag once set stays set through every step but reset, and the flags enable and disable no step. -/
def Obligations.StatusIsStickyAndInert : Prop :=
  (∀ (e : Event) (s : State) (f : StatusFlag), e ≠ .reset → hasFlag f s = true →
    ∃ t : State, fire e s = .next t ∧ hasFlag f t = true) ∧
  ∀ (e : Event) (s : State) (v : BitVec 3), enabled e { s with status := v } = enabled e s

/-- The table of R20 ("written by"), with R21, R25 and R37: only the named steps write each element. `RESET` writes
every one, and nothing writes the configuration. -/
def Obligations.OnlyTheNamedStepsWrite : Prop :=
  ∀ (e : Event) (s : State), ∃ t : State, fire e s = .next t ∧ t.cfg = s.cfg ∧
    (stepName e ∉ [.pulse, .cmd, .boot, .reset] → t.bal = s.bal ∧ t.cnt = s.cnt) ∧
    (stepName e ∉ [.pulse, .reset] → t.last = s.last ∧ t.clk = s.clk) ∧
    (stepName e ∉ [.edge, .pulse, .reset] → t.latch = s.latch) ∧
    (stepName e ∉ [.rxIn, .dec, .reset] → t.rxbuf = s.rxbuf) ∧
    (stepName e ∉ [.dec, .cmd, .reset] → t.slot = s.slot) ∧
    (stepName e ∉ [.cmd, .txByte, .reset] → t.txq = s.txq) ∧
    (stepName e ∉ [.cmd, .txEnd, .reset] → t.txph = s.txph) ∧
    (stepName e ∉ [.txBegin, .txEnd, .reset] → t.dir = s.dir) ∧
    (stepName e ∉ [.rxIn, .cmd, .boot, .reset] → t.status = s.status) ∧
    (stepName e ∉ [.boot, .reset] → t.booted = s.booted) ∧
    (stepName e ∉ [.cmd, .boot] → saveRequests t.outputs = saveRequests s.outputs) ∧
    (stepName e ≠ .txByte → emittedBytes t.outputs = emittedBytes s.outputs)

/-- R265: the block's own response, echoed, is an unknown command, whatever the record's texts; so its execution
changes no wallet register and makes no save request. The spec marks R265 as its own inference from R105, R109 and
R192. -/
def Obligations.EchoedResponseIsUnknown : Prop :=
  ∀ (r : Response) (s : State), parse (serialize r) = .unknown (serialize r) ∧
    ∃ t : State, exec (parse (serialize r)) s = .next t ∧ t.bal = s.bal ∧ t.cnt = s.cnt ∧ t.last = s.last ∧
      saveRequests t.outputs = saveRequests s.outputs

/-- R33, R166: the continuously driven outputs are functions of the state: the balance, whether it is 0, the direction
line where there is one, the wallet pair, and the flags. -/
def Obligations.OutputsFollowTheState : Prop :=
  ∀ s : State, disp s = s.bal ∧ (zind s = true ↔ s.bal = 0) ∧
    (s.cfg.hasDir = true → dirPin s = some s.dir) ∧ (s.cfg.hasDir = false → dirPin s = none) ∧
    snap s = (s.bal, s.cnt) ∧ statusOut s = s.status
end

