-- ==== Sys2Proof/Laws/Codec.lean ====
section
/-! SUPPORT. The frame encoder and decoder, one lemma for each way a call can go (40_frame_codec.md R100 to R106). -/

namespace Sys2Proof.Machine

/-- What the encoder gives, and when (R100, R101). -/
theorem encodeFrame_eq_some {p f : Bytes} :
    encodeFrame p = some f ↔
      p.length ≤ 255 ∧ f = 0x7E :: BitVec.ofNat 8 p.length :: (p ++ [checksum p.length p]) := by
  unfold encodeFrame maxPayload startMarker
  split
  · rename_i h
    constructor
    · simp
    · rintro ⟨h', -⟩; omega
  · rename_i h
    constructor
    · intro h'
      refine ⟨by omega, ?_⟩
      simpa using h'.symm
    · rintro ⟨-, rfl⟩
      simp

theorem encodeFrame_length {p f : Bytes} (h : encodeFrame p = some f) : f.length = p.length + 3 := by
  obtain ⟨-, rfl⟩ := encodeFrame_eq_some.1 h
  simp

@[simp] theorem decodeFrame_nil : decodeFrame [] = ⟨[], none, []⟩ := rfl

/-- A byte that is no marker is discarded (R103). -/
theorem decodeFrame_of_ne {b : Byte} (rest : Bytes) (h : b ≠ 0x7E) : decodeFrame (b :: rest) = decodeFrame rest := by
  rw [decodeFrame]; exact if_pos h

/-- An incomplete candidate waits (R104). -/
theorem decodeFrame_wait {rest : Bytes} (h : rest.length < (rest.getD 0 0).toNat + 2) :
    decodeFrame (0x7E :: rest) = ⟨0x7E :: rest, none, []⟩ := by
  rw [decodeFrame]
  have h1 : (0x7E :: rest).length < (List.getD (0x7E :: rest) 1 0).toNat + 3 := by
    simpa using h
  by_cases h0 : (0x7E :: rest).length < minFrame
  · simp only [startMarker, ne_eq, not_true_eq_false, if_false, h0, if_true]
  · simp only [startMarker, ne_eq, not_true_eq_false, if_false, h0, h1, if_true]

/-- A complete candidate, the bytes after its marker split at its length: it is yielded when its checksum matches
(R105), and otherwise loses its marker only (R106). -/
theorem decodeFrame_complete {length cs : Byte} {payload after : Bytes} (h : payload.length = length.toNat) :
    decodeFrame (0x7E :: length :: (payload ++ cs :: after)) =
      if checksum length.toNat payload = cs then ⟨after, some payload, []⟩
      else
        ⟨(decodeFrame (length :: (payload ++ cs :: after))).buffer,
          (decodeFrame (length :: (payload ++ cs :: after))).payload,
          length.toNat :: (decodeFrame (length :: (payload ++ cs :: after))).corrupt⟩ := by
  rw [decodeFrame]
  have hlen : ¬ (0x7E :: length :: (payload ++ cs :: after)).length < length.toNat + 3 := by
    simp [← h]
  have hmin : ¬ (0x7E :: length :: (payload ++ cs :: after)).length < minFrame := by
    simp [minFrame]; omega
  have htake : (List.drop 2 (0x7E :: length :: (payload ++ cs :: after))).take length.toNat = payload := by
    simp [← h]
  have hcs : (0x7E :: length :: (payload ++ cs :: after)).getD (length.toNat + 2) 0 = cs := by
    simp [← h]
  have hdrop : (0x7E :: length :: (payload ++ cs :: after)).drop (length.toNat + 3) = after := by
    simp [← h]
  have hL : (List.getD (0x7E :: length :: (payload ++ cs :: after)) 1 0).toNat = length.toNat := by simp
  simp only [startMarker, ne_eq, not_true_eq_false, if_false, hmin, hL, hlen, htake, hcs, hdrop]

/-- Every buffer is one of these: it is empty, its first byte is no marker, its first candidate is incomplete, or that
candidate is complete and splits at its length. -/
theorem buffer_cases (buf : Bytes) :
    buf = [] ∨
    (∃ b rest, buf = b :: rest ∧ b ≠ 0x7E) ∨
    (∃ rest : Bytes, buf = 0x7E :: rest ∧ rest.length < (rest.getD 0 0).toNat + 2) ∨
    ∃ (length cs : Byte) (payload after : Bytes),
      buf = 0x7E :: length :: (payload ++ cs :: after) ∧ payload.length = length.toNat := by
  rcases buf with _ | ⟨b, rest⟩
  · exact .inl rfl
  by_cases hb : b = 0x7E
  · subst hb
    by_cases h : rest.length < (rest.getD 0 0).toNat + 2
    · exact .inr (.inr (.inl ⟨rest, rfl, h⟩))
    · refine .inr (.inr (.inr ?_))
      rcases rest with _ | ⟨length, body⟩
      · simp at h
      · have hbody : length.toNat < body.length := by simp at h; omega
        refine ⟨length, body[length.toNat], body.take length.toNat, body.drop (length.toNat + 1), ?_, ?_⟩
        · rw [List.getElem_cons_drop, List.take_append_drop]
        · simp; omega
  · exact .inr (.inl ⟨b, rest, rfl, hb⟩)

/-- The search's own induction: a property of every buffer follows from its four cases, of which a discarded byte and a
complete candidate may use the buffer behind their first byte. -/
theorem decodeFrame_induction {P : Bytes → Prop} (empty : P [])
    (discard : ∀ b rest, b ≠ 0x7E → P rest → P (b :: rest))
    (wait : ∀ rest : Bytes, rest.length < (rest.getD 0 0).toNat + 2 → P (0x7E :: rest))
    (complete : ∀ (length cs : Byte) (payload after : Bytes), payload.length = length.toNat →
      P (length :: (payload ++ cs :: after)) → P (0x7E :: length :: (payload ++ cs :: after))) :
    ∀ buf, P buf := by
  intro buf
  induction buf with
  | nil => exact empty
  | cons b rest ih =>
    rcases buffer_cases (b :: rest) with h | ⟨b', rest', h, hb⟩ | ⟨rest', h, hw⟩ | ⟨length, cs, payload, after, h, hl⟩
    · simp at h
    · cases h; exact discard _ _ hb ih
    · cases h; exact wait _ hw
    · cases h; exact complete _ _ _ _ hl ih

/-- A call never lengthens the buffer, and a yielded payload takes at least the smallest frame with it (R104, R105). -/
theorem decodeFrame_buffer_length (buf : Bytes) :
    (decodeFrame buf).buffer.length ≤ buf.length ∧
      ∀ p, (decodeFrame buf).payload = some p → (decodeFrame buf).buffer.length + 3 ≤ buf.length := by
  induction buf using decodeFrame_induction with
  | empty => simp
  | discard b rest hb ih =>
    rw [decodeFrame_of_ne _ hb]
    simp only [List.length_cons]
    exact ⟨by omega, fun p hp => by have := ih.2 p hp; omega⟩
  | wait rest hw => rw [decodeFrame_wait hw]; simp
  | complete length cs payload after hl ih =>
    rw [decodeFrame_complete hl]
    split
    · simp; omega
    · simp only [List.length_cons, List.length_append] at ih ⊢
      exact ⟨by omega, fun p hp => by have := ih.2 p hp; omega⟩

end Sys2Proof.Machine
end

