-- ==== Sys2Proof/Laws/State.lean ====
section
/-! SUPPORT. The named writes of the state, field by field: no later proof unfolds one. -/

namespace Sys2Proof.Machine

variable (s : State)

@[simp] theorem State.setWallet_cfg (b c : Nat) : (s.setWallet b c).cfg = s.cfg := rfl
@[simp] theorem State.setWallet_bal (b c : Nat) : (s.setWallet b c).bal = b := rfl
@[simp] theorem State.setWallet_cnt (b c : Nat) : (s.setWallet b c).cnt = c := rfl
@[simp] theorem State.setWallet_last (b c : Nat) : (s.setWallet b c).last = s.last := rfl
@[simp] theorem State.setWallet_latch (b c : Nat) : (s.setWallet b c).latch = s.latch := rfl
@[simp] theorem State.setWallet_rxbuf (b c : Nat) : (s.setWallet b c).rxbuf = s.rxbuf := rfl
@[simp] theorem State.setWallet_slot (b c : Nat) : (s.setWallet b c).slot = s.slot := rfl
@[simp] theorem State.setWallet_txq (b c : Nat) : (s.setWallet b c).txq = s.txq := rfl
@[simp] theorem State.setWallet_txph (b c : Nat) : (s.setWallet b c).txph = s.txph := rfl
@[simp] theorem State.setWallet_dir (b c : Nat) : (s.setWallet b c).dir = s.dir := rfl
@[simp] theorem State.setWallet_status (b c : Nat) : (s.setWallet b c).status = s.status := rfl
@[simp] theorem State.setWallet_booted (b c : Nat) : (s.setWallet b c).booted = s.booted := rfl
@[simp] theorem State.setWallet_clk (b c : Nat) : (s.setWallet b c).clk = s.clk := rfl
@[simp] theorem State.setWallet_agenda (b c : Nat) : (s.setWallet b c).agenda = s.agenda := rfl
@[simp] theorem State.setWallet_tick (b c : Nat) : (s.setWallet b c).tick = s.tick := rfl
@[simp] theorem State.setWallet_outputs (b c : Nat) : (s.setWallet b c).outputs = s.outputs := rfl

@[simp] theorem State.setLast_cfg (x : Option Nat) : (s.setLast x).cfg = s.cfg := rfl
@[simp] theorem State.setLast_bal (x : Option Nat) : (s.setLast x).bal = s.bal := rfl
@[simp] theorem State.setLast_cnt (x : Option Nat) : (s.setLast x).cnt = s.cnt := rfl
@[simp] theorem State.setLast_last (x : Option Nat) : (s.setLast x).last = x := rfl
@[simp] theorem State.setLast_latch (x : Option Nat) : (s.setLast x).latch = s.latch := rfl
@[simp] theorem State.setLast_rxbuf (x : Option Nat) : (s.setLast x).rxbuf = s.rxbuf := rfl
@[simp] theorem State.setLast_slot (x : Option Nat) : (s.setLast x).slot = s.slot := rfl
@[simp] theorem State.setLast_txq (x : Option Nat) : (s.setLast x).txq = s.txq := rfl
@[simp] theorem State.setLast_txph (x : Option Nat) : (s.setLast x).txph = s.txph := rfl
@[simp] theorem State.setLast_dir (x : Option Nat) : (s.setLast x).dir = s.dir := rfl
@[simp] theorem State.setLast_status (x : Option Nat) : (s.setLast x).status = s.status := rfl
@[simp] theorem State.setLast_booted (x : Option Nat) : (s.setLast x).booted = s.booted := rfl
@[simp] theorem State.setLast_clk (x : Option Nat) : (s.setLast x).clk = s.clk := rfl
@[simp] theorem State.setLast_agenda (x : Option Nat) : (s.setLast x).agenda = s.agenda := rfl
@[simp] theorem State.setLast_tick (x : Option Nat) : (s.setLast x).tick = s.tick := rfl
@[simp] theorem State.setLast_outputs (x : Option Nat) : (s.setLast x).outputs = s.outputs := rfl

@[simp] theorem State.setLatch_cfg (x : Bool) : (s.setLatch x).cfg = s.cfg := rfl
@[simp] theorem State.setLatch_bal (x : Bool) : (s.setLatch x).bal = s.bal := rfl
@[simp] theorem State.setLatch_cnt (x : Bool) : (s.setLatch x).cnt = s.cnt := rfl
@[simp] theorem State.setLatch_last (x : Bool) : (s.setLatch x).last = s.last := rfl
@[simp] theorem State.setLatch_latch (x : Bool) : (s.setLatch x).latch = x := rfl
@[simp] theorem State.setLatch_rxbuf (x : Bool) : (s.setLatch x).rxbuf = s.rxbuf := rfl
@[simp] theorem State.setLatch_slot (x : Bool) : (s.setLatch x).slot = s.slot := rfl
@[simp] theorem State.setLatch_txq (x : Bool) : (s.setLatch x).txq = s.txq := rfl
@[simp] theorem State.setLatch_txph (x : Bool) : (s.setLatch x).txph = s.txph := rfl
@[simp] theorem State.setLatch_dir (x : Bool) : (s.setLatch x).dir = s.dir := rfl
@[simp] theorem State.setLatch_status (x : Bool) : (s.setLatch x).status = s.status := rfl
@[simp] theorem State.setLatch_booted (x : Bool) : (s.setLatch x).booted = s.booted := rfl
@[simp] theorem State.setLatch_clk (x : Bool) : (s.setLatch x).clk = s.clk := rfl
@[simp] theorem State.setLatch_agenda (x : Bool) : (s.setLatch x).agenda = s.agenda := rfl
@[simp] theorem State.setLatch_tick (x : Bool) : (s.setLatch x).tick = s.tick := rfl
@[simp] theorem State.setLatch_outputs (x : Bool) : (s.setLatch x).outputs = s.outputs := rfl

@[simp] theorem State.setRxbuf_cfg (x : Bytes) : (s.setRxbuf x).cfg = s.cfg := rfl
@[simp] theorem State.setRxbuf_bal (x : Bytes) : (s.setRxbuf x).bal = s.bal := rfl
@[simp] theorem State.setRxbuf_cnt (x : Bytes) : (s.setRxbuf x).cnt = s.cnt := rfl
@[simp] theorem State.setRxbuf_last (x : Bytes) : (s.setRxbuf x).last = s.last := rfl
@[simp] theorem State.setRxbuf_latch (x : Bytes) : (s.setRxbuf x).latch = s.latch := rfl
@[simp] theorem State.setRxbuf_rxbuf (x : Bytes) : (s.setRxbuf x).rxbuf = x := rfl
@[simp] theorem State.setRxbuf_slot (x : Bytes) : (s.setRxbuf x).slot = s.slot := rfl
@[simp] theorem State.setRxbuf_txq (x : Bytes) : (s.setRxbuf x).txq = s.txq := rfl
@[simp] theorem State.setRxbuf_txph (x : Bytes) : (s.setRxbuf x).txph = s.txph := rfl
@[simp] theorem State.setRxbuf_dir (x : Bytes) : (s.setRxbuf x).dir = s.dir := rfl
@[simp] theorem State.setRxbuf_status (x : Bytes) : (s.setRxbuf x).status = s.status := rfl
@[simp] theorem State.setRxbuf_booted (x : Bytes) : (s.setRxbuf x).booted = s.booted := rfl
@[simp] theorem State.setRxbuf_clk (x : Bytes) : (s.setRxbuf x).clk = s.clk := rfl
@[simp] theorem State.setRxbuf_agenda (x : Bytes) : (s.setRxbuf x).agenda = s.agenda := rfl
@[simp] theorem State.setRxbuf_tick (x : Bytes) : (s.setRxbuf x).tick = s.tick := rfl
@[simp] theorem State.setRxbuf_outputs (x : Bytes) : (s.setRxbuf x).outputs = s.outputs := rfl

@[simp] theorem State.setSlot_cfg (x : Option Bytes) : (s.setSlot x).cfg = s.cfg := rfl
@[simp] theorem State.setSlot_bal (x : Option Bytes) : (s.setSlot x).bal = s.bal := rfl
@[simp] theorem State.setSlot_cnt (x : Option Bytes) : (s.setSlot x).cnt = s.cnt := rfl
@[simp] theorem State.setSlot_last (x : Option Bytes) : (s.setSlot x).last = s.last := rfl
@[simp] theorem State.setSlot_latch (x : Option Bytes) : (s.setSlot x).latch = s.latch := rfl
@[simp] theorem State.setSlot_rxbuf (x : Option Bytes) : (s.setSlot x).rxbuf = s.rxbuf := rfl
@[simp] theorem State.setSlot_slot (x : Option Bytes) : (s.setSlot x).slot = x := rfl
@[simp] theorem State.setSlot_txq (x : Option Bytes) : (s.setSlot x).txq = s.txq := rfl
@[simp] theorem State.setSlot_txph (x : Option Bytes) : (s.setSlot x).txph = s.txph := rfl
@[simp] theorem State.setSlot_dir (x : Option Bytes) : (s.setSlot x).dir = s.dir := rfl
@[simp] theorem State.setSlot_status (x : Option Bytes) : (s.setSlot x).status = s.status := rfl
@[simp] theorem State.setSlot_booted (x : Option Bytes) : (s.setSlot x).booted = s.booted := rfl
@[simp] theorem State.setSlot_clk (x : Option Bytes) : (s.setSlot x).clk = s.clk := rfl
@[simp] theorem State.setSlot_agenda (x : Option Bytes) : (s.setSlot x).agenda = s.agenda := rfl
@[simp] theorem State.setSlot_tick (x : Option Bytes) : (s.setSlot x).tick = s.tick := rfl
@[simp] theorem State.setSlot_outputs (x : Option Bytes) : (s.setSlot x).outputs = s.outputs := rfl

@[simp] theorem State.setTx_cfg (q : Bytes) (ph : TxPhase) : (s.setTx q ph).cfg = s.cfg := rfl
@[simp] theorem State.setTx_bal (q : Bytes) (ph : TxPhase) : (s.setTx q ph).bal = s.bal := rfl
@[simp] theorem State.setTx_cnt (q : Bytes) (ph : TxPhase) : (s.setTx q ph).cnt = s.cnt := rfl
@[simp] theorem State.setTx_last (q : Bytes) (ph : TxPhase) : (s.setTx q ph).last = s.last := rfl
@[simp] theorem State.setTx_latch (q : Bytes) (ph : TxPhase) : (s.setTx q ph).latch = s.latch := rfl
@[simp] theorem State.setTx_rxbuf (q : Bytes) (ph : TxPhase) : (s.setTx q ph).rxbuf = s.rxbuf := rfl
@[simp] theorem State.setTx_slot (q : Bytes) (ph : TxPhase) : (s.setTx q ph).slot = s.slot := rfl
@[simp] theorem State.setTx_txq (q : Bytes) (ph : TxPhase) : (s.setTx q ph).txq = q := rfl
@[simp] theorem State.setTx_txph (q : Bytes) (ph : TxPhase) : (s.setTx q ph).txph = ph := rfl
@[simp] theorem State.setTx_dir (q : Bytes) (ph : TxPhase) : (s.setTx q ph).dir = s.dir := rfl
@[simp] theorem State.setTx_status (q : Bytes) (ph : TxPhase) : (s.setTx q ph).status = s.status := rfl
@[simp] theorem State.setTx_booted (q : Bytes) (ph : TxPhase) : (s.setTx q ph).booted = s.booted := rfl
@[simp] theorem State.setTx_clk (q : Bytes) (ph : TxPhase) : (s.setTx q ph).clk = s.clk := rfl
@[simp] theorem State.setTx_agenda (q : Bytes) (ph : TxPhase) : (s.setTx q ph).agenda = s.agenda := rfl
@[simp] theorem State.setTx_tick (q : Bytes) (ph : TxPhase) : (s.setTx q ph).tick = s.tick := rfl
@[simp] theorem State.setTx_outputs (q : Bytes) (ph : TxPhase) : (s.setTx q ph).outputs = s.outputs := rfl

@[simp] theorem State.setDir_cfg (x : Bool) : (s.setDir x).cfg = s.cfg := rfl
@[simp] theorem State.setDir_bal (x : Bool) : (s.setDir x).bal = s.bal := rfl
@[simp] theorem State.setDir_cnt (x : Bool) : (s.setDir x).cnt = s.cnt := rfl
@[simp] theorem State.setDir_last (x : Bool) : (s.setDir x).last = s.last := rfl
@[simp] theorem State.setDir_latch (x : Bool) : (s.setDir x).latch = s.latch := rfl
@[simp] theorem State.setDir_rxbuf (x : Bool) : (s.setDir x).rxbuf = s.rxbuf := rfl
@[simp] theorem State.setDir_slot (x : Bool) : (s.setDir x).slot = s.slot := rfl
@[simp] theorem State.setDir_txq (x : Bool) : (s.setDir x).txq = s.txq := rfl
@[simp] theorem State.setDir_txph (x : Bool) : (s.setDir x).txph = s.txph := rfl
@[simp] theorem State.setDir_dir (x : Bool) : (s.setDir x).dir = x := rfl
@[simp] theorem State.setDir_status (x : Bool) : (s.setDir x).status = s.status := rfl
@[simp] theorem State.setDir_booted (x : Bool) : (s.setDir x).booted = s.booted := rfl
@[simp] theorem State.setDir_clk (x : Bool) : (s.setDir x).clk = s.clk := rfl
@[simp] theorem State.setDir_agenda (x : Bool) : (s.setDir x).agenda = s.agenda := rfl
@[simp] theorem State.setDir_tick (x : Bool) : (s.setDir x).tick = s.tick := rfl
@[simp] theorem State.setDir_outputs (x : Bool) : (s.setDir x).outputs = s.outputs := rfl

@[simp] theorem State.setStatus_cfg (x : BitVec 3) : (s.setStatus x).cfg = s.cfg := rfl
@[simp] theorem State.setStatus_bal (x : BitVec 3) : (s.setStatus x).bal = s.bal := rfl
@[simp] theorem State.setStatus_cnt (x : BitVec 3) : (s.setStatus x).cnt = s.cnt := rfl
@[simp] theorem State.setStatus_last (x : BitVec 3) : (s.setStatus x).last = s.last := rfl
@[simp] theorem State.setStatus_latch (x : BitVec 3) : (s.setStatus x).latch = s.latch := rfl
@[simp] theorem State.setStatus_rxbuf (x : BitVec 3) : (s.setStatus x).rxbuf = s.rxbuf := rfl
@[simp] theorem State.setStatus_slot (x : BitVec 3) : (s.setStatus x).slot = s.slot := rfl
@[simp] theorem State.setStatus_txq (x : BitVec 3) : (s.setStatus x).txq = s.txq := rfl
@[simp] theorem State.setStatus_txph (x : BitVec 3) : (s.setStatus x).txph = s.txph := rfl
@[simp] theorem State.setStatus_dir (x : BitVec 3) : (s.setStatus x).dir = s.dir := rfl
@[simp] theorem State.setStatus_status (x : BitVec 3) : (s.setStatus x).status = x := rfl
@[simp] theorem State.setStatus_booted (x : BitVec 3) : (s.setStatus x).booted = s.booted := rfl
@[simp] theorem State.setStatus_clk (x : BitVec 3) : (s.setStatus x).clk = s.clk := rfl
@[simp] theorem State.setStatus_agenda (x : BitVec 3) : (s.setStatus x).agenda = s.agenda := rfl
@[simp] theorem State.setStatus_tick (x : BitVec 3) : (s.setStatus x).tick = s.tick := rfl
@[simp] theorem State.setStatus_outputs (x : BitVec 3) : (s.setStatus x).outputs = s.outputs := rfl

@[simp] theorem State.setBooted_cfg (x : Bool) : (s.setBooted x).cfg = s.cfg := rfl
@[simp] theorem State.setBooted_bal (x : Bool) : (s.setBooted x).bal = s.bal := rfl
@[simp] theorem State.setBooted_cnt (x : Bool) : (s.setBooted x).cnt = s.cnt := rfl
@[simp] theorem State.setBooted_last (x : Bool) : (s.setBooted x).last = s.last := rfl
@[simp] theorem State.setBooted_latch (x : Bool) : (s.setBooted x).latch = s.latch := rfl
@[simp] theorem State.setBooted_rxbuf (x : Bool) : (s.setBooted x).rxbuf = s.rxbuf := rfl
@[simp] theorem State.setBooted_slot (x : Bool) : (s.setBooted x).slot = s.slot := rfl
@[simp] theorem State.setBooted_txq (x : Bool) : (s.setBooted x).txq = s.txq := rfl
@[simp] theorem State.setBooted_txph (x : Bool) : (s.setBooted x).txph = s.txph := rfl
@[simp] theorem State.setBooted_dir (x : Bool) : (s.setBooted x).dir = s.dir := rfl
@[simp] theorem State.setBooted_status (x : Bool) : (s.setBooted x).status = s.status := rfl
@[simp] theorem State.setBooted_booted (x : Bool) : (s.setBooted x).booted = x := rfl
@[simp] theorem State.setBooted_clk (x : Bool) : (s.setBooted x).clk = s.clk := rfl
@[simp] theorem State.setBooted_agenda (x : Bool) : (s.setBooted x).agenda = s.agenda := rfl
@[simp] theorem State.setBooted_tick (x : Bool) : (s.setBooted x).tick = s.tick := rfl
@[simp] theorem State.setBooted_outputs (x : Bool) : (s.setBooted x).outputs = s.outputs := rfl

@[simp] theorem State.setClk_cfg (x : Option Nat) : (s.setClk x).cfg = s.cfg := rfl
@[simp] theorem State.setClk_bal (x : Option Nat) : (s.setClk x).bal = s.bal := rfl
@[simp] theorem State.setClk_cnt (x : Option Nat) : (s.setClk x).cnt = s.cnt := rfl
@[simp] theorem State.setClk_last (x : Option Nat) : (s.setClk x).last = s.last := rfl
@[simp] theorem State.setClk_latch (x : Option Nat) : (s.setClk x).latch = s.latch := rfl
@[simp] theorem State.setClk_rxbuf (x : Option Nat) : (s.setClk x).rxbuf = s.rxbuf := rfl
@[simp] theorem State.setClk_slot (x : Option Nat) : (s.setClk x).slot = s.slot := rfl
@[simp] theorem State.setClk_txq (x : Option Nat) : (s.setClk x).txq = s.txq := rfl
@[simp] theorem State.setClk_txph (x : Option Nat) : (s.setClk x).txph = s.txph := rfl
@[simp] theorem State.setClk_dir (x : Option Nat) : (s.setClk x).dir = s.dir := rfl
@[simp] theorem State.setClk_status (x : Option Nat) : (s.setClk x).status = s.status := rfl
@[simp] theorem State.setClk_booted (x : Option Nat) : (s.setClk x).booted = s.booted := rfl
@[simp] theorem State.setClk_clk (x : Option Nat) : (s.setClk x).clk = x := rfl
@[simp] theorem State.setClk_agenda (x : Option Nat) : (s.setClk x).agenda = s.agenda := rfl
@[simp] theorem State.setClk_tick (x : Option Nat) : (s.setClk x).tick = s.tick := rfl
@[simp] theorem State.setClk_outputs (x : Option Nat) : (s.setClk x).outputs = s.outputs := rfl

@[simp] theorem State.setAgenda_cfg (a : List Event) (n : Nat) : (s.setAgenda a n).cfg = s.cfg := rfl
@[simp] theorem State.setAgenda_bal (a : List Event) (n : Nat) : (s.setAgenda a n).bal = s.bal := rfl
@[simp] theorem State.setAgenda_cnt (a : List Event) (n : Nat) : (s.setAgenda a n).cnt = s.cnt := rfl
@[simp] theorem State.setAgenda_last (a : List Event) (n : Nat) : (s.setAgenda a n).last = s.last := rfl
@[simp] theorem State.setAgenda_latch (a : List Event) (n : Nat) : (s.setAgenda a n).latch = s.latch := rfl
@[simp] theorem State.setAgenda_rxbuf (a : List Event) (n : Nat) : (s.setAgenda a n).rxbuf = s.rxbuf := rfl
@[simp] theorem State.setAgenda_slot (a : List Event) (n : Nat) : (s.setAgenda a n).slot = s.slot := rfl
@[simp] theorem State.setAgenda_txq (a : List Event) (n : Nat) : (s.setAgenda a n).txq = s.txq := rfl
@[simp] theorem State.setAgenda_txph (a : List Event) (n : Nat) : (s.setAgenda a n).txph = s.txph := rfl
@[simp] theorem State.setAgenda_dir (a : List Event) (n : Nat) : (s.setAgenda a n).dir = s.dir := rfl
@[simp] theorem State.setAgenda_status (a : List Event) (n : Nat) : (s.setAgenda a n).status = s.status := rfl
@[simp] theorem State.setAgenda_booted (a : List Event) (n : Nat) : (s.setAgenda a n).booted = s.booted := rfl
@[simp] theorem State.setAgenda_clk (a : List Event) (n : Nat) : (s.setAgenda a n).clk = s.clk := rfl
@[simp] theorem State.setAgenda_agenda (a : List Event) (n : Nat) : (s.setAgenda a n).agenda = a := rfl
@[simp] theorem State.setAgenda_tick (a : List Event) (n : Nat) : (s.setAgenda a n).tick = n := rfl
@[simp] theorem State.setAgenda_outputs (a : List Event) (n : Nat) : (s.setAgenda a n).outputs = s.outputs := rfl

@[simp] theorem State.output_cfg (o : List Output) : (s.output o).cfg = s.cfg := rfl
@[simp] theorem State.output_bal (o : List Output) : (s.output o).bal = s.bal := rfl
@[simp] theorem State.output_cnt (o : List Output) : (s.output o).cnt = s.cnt := rfl
@[simp] theorem State.output_last (o : List Output) : (s.output o).last = s.last := rfl
@[simp] theorem State.output_latch (o : List Output) : (s.output o).latch = s.latch := rfl
@[simp] theorem State.output_rxbuf (o : List Output) : (s.output o).rxbuf = s.rxbuf := rfl
@[simp] theorem State.output_slot (o : List Output) : (s.output o).slot = s.slot := rfl
@[simp] theorem State.output_txq (o : List Output) : (s.output o).txq = s.txq := rfl
@[simp] theorem State.output_txph (o : List Output) : (s.output o).txph = s.txph := rfl
@[simp] theorem State.output_dir (o : List Output) : (s.output o).dir = s.dir := rfl
@[simp] theorem State.output_status (o : List Output) : (s.output o).status = s.status := rfl
@[simp] theorem State.output_booted (o : List Output) : (s.output o).booted = s.booted := rfl
@[simp] theorem State.output_clk (o : List Output) : (s.output o).clk = s.clk := rfl
@[simp] theorem State.output_agenda (o : List Output) : (s.output o).agenda = s.agenda := rfl
@[simp] theorem State.output_tick (o : List Output) : (s.output o).tick = s.tick := rfl
@[simp] theorem State.output_outputs (o : List Output) : (s.output o).outputs = s.outputs ++ o := rfl

/-! The reset state, element by element. -/

variable (c : Config)

@[simp] theorem State.resetWith_cfg : (State.resetWith c).cfg = c := rfl
@[simp] theorem State.resetWith_bal : (State.resetWith c).bal = 0 := rfl
@[simp] theorem State.resetWith_cnt : (State.resetWith c).cnt = 0 := rfl
@[simp] theorem State.resetWith_last : (State.resetWith c).last = none := rfl
@[simp] theorem State.resetWith_latch : (State.resetWith c).latch = false := rfl
@[simp] theorem State.resetWith_rxbuf : (State.resetWith c).rxbuf = [] := rfl
@[simp] theorem State.resetWith_slot : (State.resetWith c).slot = none := rfl
@[simp] theorem State.resetWith_txq : (State.resetWith c).txq = [] := rfl
@[simp] theorem State.resetWith_txph : (State.resetWith c).txph = .idle := rfl
@[simp] theorem State.resetWith_dir : (State.resetWith c).dir = false := rfl
@[simp] theorem State.resetWith_status : (State.resetWith c).status = 0 := rfl
@[simp] theorem State.resetWith_booted : (State.resetWith c).booted = false := rfl
@[simp] theorem State.resetWith_clk : (State.resetWith c).clk = none := rfl
@[simp] theorem State.resetWith_agenda : (State.resetWith c).agenda = [] := rfl
@[simp] theorem State.resetWith_tick : (State.resetWith c).tick = 0 := rfl
@[simp] theorem State.resetWith_outputs : (State.resetWith c).outputs = [] := rfl

end Sys2Proof.Machine
end

