-- ==== Sys2Proof/Laws/Ops.lean ====
section
/-! SUPPORT. The shared operations: what each does, once, and what the world's record of the outputs reads. -/

namespace Sys2Proof.Machine

/-! ## Outputs -/

@[simp] theorem raise_eq (e : ErrorCondition) (s : State) : raise e s = s.output [.raised e] := rfl

@[simp] theorem saveWallet_eq (s : State) : saveWallet s = s.output [.saveReq s.bal s.cnt] := rfl

@[simp] theorem State.output_nil (s : State) : s.output [] = s := by simp [State.output]

@[simp] theorem emittedBytes_append (a b : List Output) :
    emittedBytes (a ++ b) = emittedBytes a ++ emittedBytes b := by
  induction a with
  | nil => rfl
  | cons o a ih => cases o <;> simp [emittedBytes, ih]

@[simp] theorem saveRequests_append (a b : List Output) :
    saveRequests (a ++ b) = saveRequests a ++ saveRequests b := by
  induction a with
  | nil => rfl
  | cons o a ih => cases o <;> simp [saveRequests, ih]

@[simp] theorem saveRequests_raised (es : List ErrorCondition) : saveRequests (es.map Output.raised) = [] := by
  induction es with
  | nil => rfl
  | cons e es ih => simpa [saveRequests] using ih

@[simp] theorem emittedBytes_raised (es : List ErrorCondition) : emittedBytes (es.map Output.raised) = [] := by
  induction es with
  | nil => rfl
  | cons e es ih => simpa [emittedBytes] using ih

/-! ## Flags and saturation -/

@[simp] theorem setFlag_eq (f : StatusFlag) (s : State) :
    setFlag f s = s.setStatus (s.status ||| BitVec.twoPow 3 (flagBit f)) := rfl

/-- A flag that is set stays set whatever other bits are set. -/
theorem getLsbD_or_of_left {v w : BitVec 3} {i : Nat} (h : v.getLsbD i = true) : (v ||| w).getLsbD i = true := by
  simp [h]

theorem satInc_le (v max : Nat) : satInc v max ≤ max := by
  unfold satInc; split <;> omega

theorem satInc_of_lt {v max : Nat} (h : v < max) : satInc v max = v + 1 := by simp [satInc, h]

@[simp] theorem satInc_max (max : Nat) : satInc max max = max := by simp [satInc]

/-! ## Steps that do not fire -/

theorem fire_of_enabled {e : Event} {s : State} (h : enabled e s = true) : fire e s = perform e s := by
  simp [fire, h]

end Sys2Proof.Machine
end

