-- ==== Sys2Proof/Laws/Command.lean ====
section
/-! SUPPORT. What every command does at its end, said once: the response, the save request and the queued frame
(43_command_processor.md R180, R193), as `afterCommand` describes them. -/

namespace Sys2Proof.Machine

/-- A command that has written its wallet and raised its conditions, and now answers, leaves the state that
`afterCommand` describes, of the state it started from. -/
theorem respond_eq_afterCommand (status : ResponseStatus) (message : Bytes) (changed : Bool) (amt b c : Nat)
    (raised : List ErrorCondition) (s : State) :
    respond status message changed amt ((s.setWallet b c).output (raised.map Output.raised)) =
      afterCommand s ⟨status, b, c, message, changed, amt⟩ raised := by
  simp only [respond, queueResponse, afterCommand, makeResponse, State.output_bal, State.output_cnt,
    State.setWallet_bal, State.setWallet_cnt]
  cases encodeFrame (serialize ⟨status, b, c, message, changed, amt⟩) <;> cases changed <;>
    simp [State.setTx, State.output, State.setWallet, State.setStatus, flagBit, BitVec.twoPow]

/-- The same for a command that leaves its wallet and raises one condition. -/
theorem respond_raise_eq_afterCommand (status : ResponseStatus) (message : Bytes) (changed : Bool) (amt : Nat)
    (e : ErrorCondition) (s : State) :
    respond status message changed amt (raise e s) =
      afterCommand s ⟨status, s.bal, s.cnt, message, changed, amt⟩ [e] :=
  respond_eq_afterCommand status message changed amt s.bal s.cnt [e] s

/-- The same for a command that raises nothing. -/
theorem respond_setWallet_eq_afterCommand (status : ResponseStatus) (message : Bytes) (changed : Bool) (amt b c : Nat)
    (s : State) :
    respond status message changed amt (s.setWallet b c) = afterCommand s ⟨status, b, c, message, changed, amt⟩ [] := by
  rw [← respond_eq_afterCommand, List.map_nil, State.output_nil]

/-- The same for a query. -/
theorem respond_self_eq_afterCommand (status : ResponseStatus) (message : Bytes) (changed : Bool) (amt : Nat)
    (s : State) :
    respond status message changed amt s = afterCommand s ⟨status, s.bal, s.cnt, message, changed, amt⟩ [] :=
  respond_setWallet_eq_afterCommand status message changed amt s.bal s.cnt s

section Fields

variable (s : State) (r : Response) (raised : List ErrorCondition)

/-! The elements a command writes, and those it leaves. -/

@[simp] theorem afterCommand_bal : (afterCommand s r raised).bal = r.balance := by
  unfold afterCommand; cases encodeFrame (serialize r) <;> rfl

@[simp] theorem afterCommand_cnt : (afterCommand s r raised).cnt = r.pulseCount := by
  unfold afterCommand; cases encodeFrame (serialize r) <;> rfl

@[simp] theorem afterCommand_cfg : (afterCommand s r raised).cfg = s.cfg := by
  unfold afterCommand; cases encodeFrame (serialize r) <;> rfl

@[simp] theorem afterCommand_last : (afterCommand s r raised).last = s.last := by
  unfold afterCommand; cases encodeFrame (serialize r) <;> rfl

@[simp] theorem afterCommand_latch : (afterCommand s r raised).latch = s.latch := by
  unfold afterCommand; cases encodeFrame (serialize r) <;> rfl

@[simp] theorem afterCommand_rxbuf : (afterCommand s r raised).rxbuf = s.rxbuf := by
  unfold afterCommand; cases encodeFrame (serialize r) <;> rfl

@[simp] theorem afterCommand_slot : (afterCommand s r raised).slot = s.slot := by
  unfold afterCommand; cases encodeFrame (serialize r) <;> rfl

@[simp] theorem afterCommand_dir : (afterCommand s r raised).dir = s.dir := by
  unfold afterCommand; cases encodeFrame (serialize r) <;> rfl

@[simp] theorem afterCommand_booted : (afterCommand s r raised).booted = s.booted := by
  unfold afterCommand; cases encodeFrame (serialize r) <;> rfl

@[simp] theorem afterCommand_clk : (afterCommand s r raised).clk = s.clk := by
  unfold afterCommand; cases encodeFrame (serialize r) <;> rfl

@[simp] theorem afterCommand_agenda : (afterCommand s r raised).agenda = s.agenda := by
  unfold afterCommand; cases encodeFrame (serialize r) <;> rfl

@[simp] theorem afterCommand_tick : (afterCommand s r raised).tick = s.tick := by
  unfold afterCommand; cases encodeFrame (serialize r) <;> rfl

/-- The save request of a change, and no other, whether or not there is a frame. -/
@[simp] theorem afterCommand_saveRequests :
    saveRequests (afterCommand s r raised).outputs =
      saveRequests s.outputs ++ if r.changed then [(r.balance, r.pulseCount)] else [] := by
  unfold afterCommand
  cases encodeFrame (serialize r) <;> cases h : r.changed <;> simp [saveRequests]

/-- A command emits no byte itself. -/
@[simp] theorem afterCommand_emittedBytes :
    emittedBytes (afterCommand s r raised).outputs = emittedBytes s.outputs := by
  unfold afterCommand
  cases encodeFrame (serialize r) <;> cases h : r.changed <;> simp [emittedBytes]

/-- The transmitter and the flags after a command: a frame is queued and sending begins, or the flag is set and the
transmitter stays as it was. -/
theorem afterCommand_tx :
    (∃ f, encodeFrame (serialize r) = some f ∧ (afterCommand s r raised).txq = f ∧
      (afterCommand s r raised).txph = .send ∧ (afterCommand s r raised).status = s.status) ∨
    (encodeFrame (serialize r) = none ∧ (afterCommand s r raised).txq = s.txq ∧
      (afterCommand s r raised).txph = s.txph ∧ (afterCommand s r raised).status = s.status ||| 2) := by
  unfold afterCommand
  cases h : encodeFrame (serialize r) with
  | none => exact .inr ⟨rfl, rfl, rfl, rfl⟩
  | some f => exact .inl ⟨f, rfl, rfl, rfl, rfl⟩

end Fields

end Sys2Proof.Machine
end

