-- ==== Sys2Proof/Laws/Agents.lean ====
section
/-! SUPPORT. What each step can do, said once (00_scope.md R11): the invariants follow from these without unfolding a
step again. -/

namespace Sys2Proof.Machine

/-- The outcomes of a command: it always answers, and the wallet it leaves is one of the rows of R193, or as it was. -/
theorem exec_cases (i : Instr) (s : State) :
    ∃ r raised, exec i s = .next (afterCommand s r raised) ∧ r.changed = commandChanges i s ∧
      ((r.balance = s.bal ∧ r.pulseCount = s.cnt) ∨
        (∃ a n, i = .addBalance a ∧ amount s.cfg a = some n ∧ r.balance = s.bal + n ∧ r.balance ≤ s.cfg.balMax ∧
          r.pulseCount = s.cnt) ∨
        (∃ a n, i = .subBalance a ∧ amount s.cfg a = some n ∧ n ≤ s.bal ∧ r.balance = s.bal - n ∧
          r.pulseCount = s.cnt) ∨
        (i = .resetBalance ∧ r.balance = 0 ∧ r.pulseCount = s.cnt) ∨
        (i = .resetCount ∧ r.balance = s.bal ∧ r.pulseCount = 0)) := by
  cases i with
  | getBalance =>
    refine ⟨⟨.success, s.bal, s.cnt, dec s.bal, false, 0⟩, [], ?_, rfl, .inl ⟨rfl, rfl⟩⟩
    simp only [exec, execGetBalance, respond_self_eq_afterCommand]
  | getStatus =>
    refine ⟨⟨.success, s.bal, s.cnt, s.cfg.statusText, false, 0⟩, [], ?_, rfl, .inl ⟨rfl, rfl⟩⟩
    simp only [exec, execGetStatus, respond_self_eq_afterCommand]
  | getCoinCount =>
    refine ⟨⟨.success, s.bal, s.cnt, dec s.cnt, false, 0⟩, [], ?_, rfl, .inl ⟨rfl, rfl⟩⟩
    simp only [exec, execGetCoinCount, respond_self_eq_afterCommand]
  | addBalance a =>
    cases ha : amount s.cfg a with
    | none =>
      refine ⟨⟨.error, s.bal, s.cnt, msgInvalidAmount, false, 0⟩, [.invalidAmount a], ?_, ?_, .inl ⟨rfl, rfl⟩⟩
      · simp only [exec, execAddBalance, ha, answerInvalidAmount, respond_raise_eq_afterCommand]
      · simp [commandChanges, ha]
    | some n =>
      by_cases hn : s.bal + n ≤ s.cfg.balMax
      · refine ⟨⟨.success, s.bal + n, s.cnt, dec (s.bal + n), true, n⟩, [], ?_, ?_,
          .inr (.inl ⟨a, n, rfl, ha, rfl, hn, rfl⟩)⟩
        · simp only [exec, execAddBalance, ha, hn, if_true, respond_setWallet_eq_afterCommand]
        · simp [commandChanges, ha, hn]
      · refine ⟨⟨.error, s.bal, s.cnt, msgBalanceOverflow, false, n⟩, [.balanceOverflow n], ?_, ?_, .inl ⟨rfl, rfl⟩⟩
        · simp only [exec, execAddBalance, ha, hn, if_false, respond_raise_eq_afterCommand]
        · simp [commandChanges, ha, hn]
  | subBalance a =>
    cases ha : amount s.cfg a with
    | none =>
      refine ⟨⟨.error, s.bal, s.cnt, msgInvalidAmount, false, 0⟩, [.invalidAmount a], ?_, ?_, .inl ⟨rfl, rfl⟩⟩
      · simp only [exec, execSubBalance, ha, answerInvalidAmount, respond_raise_eq_afterCommand]
      · simp [commandChanges, ha]
    | some n =>
      by_cases hn : n ≤ s.bal
      · refine ⟨⟨.success, s.bal - n, s.cnt, dec (s.bal - n), true, n⟩, [], ?_, ?_,
          .inr (.inr (.inl ⟨a, n, rfl, ha, hn, rfl, rfl⟩))⟩
        · simp only [exec, execSubBalance, ha, hn, if_true, respond_setWallet_eq_afterCommand]
        · simp [commandChanges, ha, hn]
      · refine ⟨⟨.error, s.bal, s.cnt, msgInsufficientBalance, false, n⟩, [.insufficientBalance n], ?_, ?_,
          .inl ⟨rfl, rfl⟩⟩
        · simp only [exec, execSubBalance, ha, hn, if_false, respond_raise_eq_afterCommand]
        · simp [commandChanges, ha, hn]
  | resetBalance =>
    refine ⟨⟨.success, 0, s.cnt, dec 0, true, 0⟩, [], ?_, rfl, .inr (.inr (.inr (.inl ⟨rfl, rfl, rfl⟩)))⟩
    simp only [exec, execResetBalance, respond_setWallet_eq_afterCommand]
  | resetCount =>
    refine ⟨⟨.success, s.bal, 0, s.cfg.resetCountAck, true, 0⟩, [], ?_, rfl,
      .inr (.inr (.inr (.inr ⟨rfl, rfl, rfl⟩)))⟩
    simp only [exec, execResetCount, respond_setWallet_eq_afterCommand]
  | unknown t =>
    refine ⟨⟨.error, s.bal, s.cnt, msgUnknownCommand, false, 0⟩, [.unknownCommand t], ?_, rfl, .inl ⟨rfl, rfl⟩⟩
    simp only [exec, execUnknown, respond_raise_eq_afterCommand]

/-- The outcomes of a served edge: it is accepted, or rejected under one of the two policies (R142 to R146). -/
theorem pulse_cases (now : Nat) (s : State) :
    (debounceAccepts s.cfg s.last now = true ∧
      pulse now s =
        { s with
          latch := false, clk := some now, last := some now
          bal := satInc s.bal s.cfg.balMax, cnt := satInc s.cnt s.cfg.cntMax }) ∨
    (debounceAccepts s.cfg s.last now = false ∧ s.cfg.rejectPolicy = .zero ∧
      pulse now s = { s with latch := false, clk := some now, bal := 0, cnt := 0 }) ∨
    (debounceAccepts s.cfg s.last now = false ∧ s.cfg.rejectPolicy = .ignore ∧
      pulse now s = { s with latch := false, clk := some now }) := by
  unfold pulse
  cases h : debounceAccepts s.cfg s.last now
  · cases hp : s.cfg.rejectPolicy
    · exact .inr (.inl ⟨rfl, rfl, by simp [rejectEdge, hp, State.setWallet, State.setClk, State.setLatch]⟩)
    · exact .inr (.inr ⟨rfl, rfl, by simp [rejectEdge, hp, State.setClk, State.setLatch]⟩)
  · exact .inl ⟨rfl, by simp [acceptEdge, State.setWallet, State.setClk, State.setLatch, State.setLast]⟩

/-- The outcomes of a restore: the pair is loaded, or the wallet is zeroed with a fresh snapshot, the fault flagged if
the snapshot was not absent (R160 to R164). -/
theorem boot_cases (r : RestoreResult) (s : State) :
    (∃ b c, r = .valid b c ∧ b ≤ s.cfg.balMax ∧ c ≤ s.cfg.cntMax ∧
      boot r s = { s with bal := if s.cfg.zeroBalanceAfterLoad then 0 else b, cnt := c, booted := true }) ∨
    (r = .absent ∧
      boot r s = { s with bal := 0, cnt := 0, booted := true, outputs := s.outputs ++ [.saveReq 0 0] }) ∨
    (r ≠ .absent ∧
      boot r s =
        { s with
          bal := 0, cnt := 0, booted := true, status := s.status ||| 4
          outputs := s.outputs ++ [.raised .persistenceFailure, .saveReq 0 0] }) := by
  have hcorrupt : (zeroAfterLoad (restoreCorrupt s)).setBooted true =
      { s with
        bal := 0, cnt := 0, booted := true, status := s.status ||| 4
        outputs := s.outputs ++ [.raised .persistenceFailure, .saveReq 0 0] } := by
    cases h : s.cfg.zeroBalanceAfterLoad <;>
      simp [zeroAfterLoad, restoreCorrupt, h, State.setBooted, State.setWallet, State.output, State.setStatus,
        flagBit, BitVec.twoPow]
  cases r with
  | absent =>
    refine .inr (.inl ⟨rfl, ?_⟩)
    cases h : s.cfg.zeroBalanceAfterLoad <;>
      simp [boot, restoreWallet, zeroAfterLoad, h, State.setBooted, State.setWallet, State.output]
  | corrupt => exact .inr (.inr ⟨nofun, hcorrupt⟩)
  | valid b c =>
    by_cases hf : b ≤ s.cfg.balMax ∧ c ≤ s.cfg.cntMax
    · refine .inl ⟨b, c, rfl, hf.1, hf.2, ?_⟩
      cases h : s.cfg.zeroBalanceAfterLoad <;>
        simp [boot, restoreWallet, restoreFits, zeroAfterLoad, h, hf.1, hf.2, State.setBooted, State.setWallet]
    · refine .inr (.inr ⟨nofun, ?_⟩)
      have hfit : restoreFits s.cfg b c = false := by simp [restoreFits]; omega
      simp only [boot, restoreWallet, hfit, Bool.false_eq_true, if_false]
      exact hcorrupt

/-- What `RESET` leaves (R42, R260). -/
theorem resetBlock_eq (s : State) :
    resetBlock s =
      { State.resetWith s.cfg with agenda := s.agenda, tick := s.tick, outputs := s.outputs } := by
  simp [resetBlock, State.setAgenda, State.output]

/-- What `DEC` leaves (R109). -/
theorem decStep_eq (s : State) :
    decStep s =
      { s with
        rxbuf := (decodeFrame s.rxbuf).buffer
        slot := ((decodeFrame s.rxbuf).payload <|> s.slot)
        outputs := s.outputs ++ (decodeFrame s.rxbuf).corrupt.map fun n => .raised (.frameCorrupt n) } := by
  unfold decStep
  cases h : (decodeFrame s.rxbuf).payload <;> simp [h, State.setRxbuf, State.output, State.setSlot]

end Sys2Proof.Machine
end

