-- ==== Sys2Proof/Laws/Decode.lean ====
section
/-! SUPPORT. `trim` (30_encoding.md R77): what it takes away and what it leaves. -/

namespace Sys2Proof

/-- The leading part that `dropWhile` takes away satisfies the test. -/
theorem exists_dropWhile {α : Type} (test : α → Bool) (l : List α) :
    ∃ before, l = before ++ l.dropWhile test ∧ ∀ x ∈ before, test x = true :=
  ⟨l.takeWhile test, (List.takeWhile_append_dropWhile ..).symm, fun _ => List.mem_takeWhile_imp⟩

/-- A trimmed text is left as it is. -/
theorem trim_of_isTrimmed {t : Bytes} (h : isTrimmed t = true) : trim t = t := by
  rcases t with _ | ⟨b, rest⟩
  · rfl
  · simp only [isTrimmed, List.head?_cons, Option.any_some, Bool.and_eq_true, Bool.not_eq_true'] at h
    obtain ⟨hb, hlast⟩ := h
    have h1 : (b :: rest).dropWhile isWhitespace = b :: rest := by
      rw [List.dropWhile_cons_of_neg (by simp [hb])]
    unfold trim
    rw [h1]
    have h2 : ((b :: rest).reverse).dropWhile isWhitespace = (b :: rest).reverse := by
      rcases hr : (b :: rest).reverse with _ | ⟨c, back⟩
      · simp at hr
      · have hc : (b :: rest).getLast? = some c := by
          rw [← List.head?_reverse, hr]; rfl
        rw [hc] at hlast
        rw [List.dropWhile_cons_of_neg (by simpa using hlast)]
    rw [h2, List.reverse_reverse]

/-- A command's bytes are never longer than its texts say. -/
theorem length_kwAddBalance : kwAddBalance.length = 12 := rfl

theorem length_kwSubBalance : kwSubBalance.length = 12 := rfl

end Sys2Proof
end

