-- ==== Sys2Proof/Laws/PerInstr.lean ====
section
/-! SUPPORT. A law of every command as syntax, one lemma for each constructor: the bytes of a well-formed command fit
in one frame and are trimmed (30_encoding.md R70, R77). -/

namespace Sys2Proof.Laws

/-- The bytes of a well-formed command are a payload that a frame can carry and that trimming leaves as it is. -/
def FitsOneFrame.Statement (i : Instr) : Prop :=
  i.wellFormed = true → (encode i).length ≤ maxPayload ∧ trim (encode i) = encode i

theorem FitsOneFrame.getBalance : FitsOneFrame.Statement .getBalance := fun _ => by decide

theorem FitsOneFrame.getStatus : FitsOneFrame.Statement .getStatus := fun _ => by decide

theorem FitsOneFrame.getCoinCount : FitsOneFrame.Statement .getCoinCount := fun _ => by decide

/-- A keyword that ends in no whitespace, with an amount text that does not either, is trimmed. -/
theorem isTrimmed_keyword_append {keyword a : Bytes} (hk : isTrimmed keyword = true) (hne : keyword ≠ [])
    (ha : a.getLast?.any isWhitespace = false) : isTrimmed (keyword ++ a) = true := by
  rcases keyword with _ | ⟨b, keyword⟩
  · exact absurd rfl hne
  · rcases List.eq_nil_or_concat a with rfl | ⟨a', c, rfl⟩
    · simpa using hk
    · simp only [isTrimmed, List.head?_cons, Option.any_some, Bool.and_eq_true, Bool.not_eq_true',
        List.cons_append, ← List.append_assoc, List.concat_eq_append, List.getLast?_append, List.getLast?_singleton,
        Option.some_or] at *
      simp only [← List.cons_append, List.getLast?_append, List.getLast?_singleton, Option.some_or]
      exact ⟨hk.1, by simpa using ha⟩

theorem FitsOneFrame.addBalance (a : Bytes) : FitsOneFrame.Statement (.addBalance a) := by
  intro h
  simp only [Instr.wellFormed, Bool.and_eq_true, decide_eq_true_eq, Bool.not_eq_true'] at h
  refine ⟨by simp only [encode, List.length_append, length_kwAddBalance]; omega, trim_of_isTrimmed ?_⟩
  exact isTrimmed_keyword_append (by decide) (by decide) h.2

theorem FitsOneFrame.subBalance (a : Bytes) : FitsOneFrame.Statement (.subBalance a) := by
  intro h
  simp only [Instr.wellFormed, Bool.and_eq_true, decide_eq_true_eq, Bool.not_eq_true'] at h
  refine ⟨by simp only [encode, List.length_append, length_kwSubBalance]; omega, trim_of_isTrimmed ?_⟩
  exact isTrimmed_keyword_append (by decide) (by decide) h.2

theorem FitsOneFrame.resetBalance : FitsOneFrame.Statement .resetBalance := fun _ => by decide

theorem FitsOneFrame.resetCount : FitsOneFrame.Statement .resetCount := fun _ => by decide

theorem FitsOneFrame.unknown (t : Bytes) : FitsOneFrame.Statement (.unknown t) := by
  intro h
  simp only [Instr.wellFormed, Bool.and_eq_true, decide_eq_true_eq] at h
  exact ⟨h.1.1, trim_of_isTrimmed h.1.2⟩

end Sys2Proof.Laws
end

