-- ==== Sys2Proof/Laws/Run.lean ====
section
/-! SUPPORT. Runs: the host's run of the machine is `runSteps`, and runs of offered steps one step at a time. -/

namespace Sys2Proof.Machine

/-- One step of a run of any machine. -/
theorem core_run_succ (M : Host.Core) (n : Nat) (s : M.State) :
    (∀ t, M.step s = .next t → M.run (n + 1) s = M.run n t) ∧
      (∀ r, M.step s = .fault r → M.run (n + 1) s = .fault r) ∧
      ∀ r, M.step s = .refused r → M.run (n + 1) s = .refused r := by
  refine ⟨fun t h => ?_, fun r h => ?_, fun r h => ?_⟩ <;> simp only [Host.Core.run, h]

theorem core_run_eq_runSteps (n : Nat) (s : State) : Host.Core.run Sys2Proof.core n s = runSteps n s := by
  induction n generalizing s with
  | zero => rfl
  | succ n ih =>
    obtain ⟨hn, hf, hr⟩ := core_run_succ Sys2Proof.core n s
    rw [runSteps]
    cases h : step s with
    | next t => exact (hn t h).trans (ih t)
    | fault r => exact hf r h
    | refused r => exact hr r h

theorem runSteps_succ {n : Nat} {s t : State} (h : step s = .next t) : runSteps (n + 1) s = runSteps n t := by
  simp only [runSteps, h]

theorem runEvents_append (a b : List Event) (s : State) : runEvents (a ++ b) s = runEvents b (runEvents a s) := by
  simp [runEvents]

@[simp] theorem runEvents_nil (s : State) : runEvents [] s = s := rfl

theorem runEvents_cons (e : Event) (es : List Event) (s : State) :
    runEvents (e :: es) s = runEvents es (fireState e s) := rfl

theorem fireState_of_fire {e : Event} {s t : State} (h : fire e s = .next t) : fireState e s = t := by
  simp [fireState, h]

end Sys2Proof.Machine
end

