-- ==== Sys2Proof/Tests/Slice0.lean ====
section
/-! SUPPORT. Tests. Expected values come from spec/opcode_table.json, from the vectors of spec/95_test_vectors.md (their
ids stand in the comments) and from the rules by hand. Then, for every statement with hypotheses, a concrete case that
meets them. -/

namespace Sys2Proof.Tests

open Sys2Proof Sys2Proof.Machine

set_option maxRecDepth 100000

/-- The ASCII codes of characters (93_implementation_defined.md K2). -/
def ascii (cs : List Char) : Bytes := cs.map fun c => BitVec.ofNat 8 c.toNat

/-- A booted, idle block with the given wallet, in the default configuration. -/
def ready (b c : Nat) : State := { State.reset with booted := true, bal := b, cnt := c }

/-- The state a step or a command answers. -/
def after (o : Host.Outcome State Fault Refusal) : State :=
  match o with
  | .next t => t
  | .fault _ => State.reset
  | .refused _ => State.reset

/-- What a test of a command looks at: the wallet, the frame's length byte and checksum, and the save requests. -/
def answered (i : Instr) (s : State) : Nat × Nat × Option Byte × Option Byte × List (Nat × Nat) :=
  let t := after (exec i s)
  (t.bal, t.cnt, t.txq[1]?, t.txq.getLast?, saveRequests t.outputs)

/-! ## Texts -/

theorem test_text_kwGetBalance : kwGetBalance = ascii ['G', 'E', 'T', '_', 'B', 'A', 'L', 'A', 'N', 'C', 'E'] := by decide

theorem test_text_kwGetStatus : kwGetStatus = ascii ['G', 'E', 'T', '_', 'S', 'T', 'A', 'T', 'U', 'S'] := by decide

theorem test_text_kwGetCoinCount : kwGetCoinCount = ascii ['G', 'E', 'T', '_', 'C', 'O', 'I', 'N', '_', 'C', 'O', 'U', 'N', 'T'] := by decide

theorem test_text_kwAddBalance : kwAddBalance = ascii ['A', 'D', 'D', '_', 'B', 'A', 'L', 'A', 'N', 'C', 'E', '='] := by decide

theorem test_text_kwSubBalance : kwSubBalance = ascii ['S', 'U', 'B', '_', 'B', 'A', 'L', 'A', 'N', 'C', 'E', '='] := by decide

theorem test_text_kwResetBalance : kwResetBalance = ascii ['R', 'E', 'S', 'E', 'T', '_', 'B', 'A', 'L', 'A', 'N', 'C', 'E'] := by decide

theorem test_text_kwResetCount : kwResetCount = ascii ['R', 'E', 'S', 'E', 'T', '_', 'C', 'O', 'U', 'N', 'T'] := by decide

theorem test_text_msgInvalidAmount : msgInvalidAmount = ascii ['i', 'n', 'v', 'a', 'l', 'i', 'd', ' ', 'a', 'm', 'o', 'u', 'n', 't'] := by decide

theorem test_text_msgUnknownCommand : msgUnknownCommand = ascii ['u', 'n', 'k', 'n', 'o', 'w', 'n', ' ', 'c', 'o', 'm', 'm', 'a', 'n', 'd'] := by decide

theorem test_text_msgInsufficientBalance : msgInsufficientBalance = ascii ['i', 'n', 's', 'u', 'f', 'f', 'i', 'c', 'i', 'e', 'n', 't', ' ', 'b', 'a', 'l', 'a', 'n', 'c', 'e'] := by decide

theorem test_text_msgBalanceOverflow : msgBalanceOverflow = ascii ['b', 'a', 'l', 'a', 'n', 'c', 'e', ' ', 'o', 'v', 'e', 'r', 'f', 'l', 'o', 'w'] := by decide

theorem test_default_texts : Config.default.statusText = ascii ['O', 'K'] ∧ Config.default.resetCountAck = ascii ['c', 'o', 'u', 'n', 't', ' ', 'r', 'e', 's', 'e', 't'] := by
  decide

/-- V-CMD-4, the whole response. -/
theorem test_serialize : serialize ⟨.success, 5, 0, [0x35], true, 5⟩ =
    [0x7B] ++ ascii ['\"', 's', 't', 'a', 't', 'u', 's', '\"', ':', '\"', 's', 'u', 'c', 'c', 'e', 's', 's', '\"', ',', '\"', 'c', 'o', 'i', 'n', '_', 'b', 'a', 'l', 'a', 'n', 'c', 'e', '\"', ':', '5', ',', '\"', 'c', 'o', 'i', 'n', '_', 'a', 'c', 'c', 'e', 'p', 't', 'o', 'r', '_', 'c', 'o', 'u', 'n', 't', '\"', ':', '0', ',', '\"', 'r', 'e', 's', 'p', 'o', 'n', 's', 'e', '\"', ':', '\"', '5', '\"', ',', '\"', 'd', 'a', 't', 'a', '_', 'c', 'h', 'a', 'n', 'g', 'e', 'd', '\"', ':', 't', 'r', 'u', 'e', ',', '\"', 'a', 'm', 'o', 'u', 'n', 't', '\"', ':', '5'] ++ [0x7D] := by
  decide

/-- V-CMD-20, the whole response. -/
theorem test_serialize_error : serialize ⟨.error, 2, 0, msgInsufficientBalance, false, 10⟩ =
    [0x7B] ++ ascii ['\"', 's', 't', 'a', 't', 'u', 's', '\"', ':', '\"', 'e', 'r', 'r', 'o', 'r', '\"', ',', '\"', 'c', 'o', 'i', 'n', '_', 'b', 'a', 'l', 'a', 'n', 'c', 'e', '\"', ':', '2', ',', '\"', 'c', 'o', 'i', 'n', '_', 'a', 'c', 'c', 'e', 'p', 't', 'o', 'r', '_', 'c', 'o', 'u', 'n', 't', '\"', ':', '0', ',', '\"', 'r', 'e', 's', 'p', 'o', 'n', 's', 'e', '\"', ':', '\"', 'i', 'n', 's', 'u', 'f', 'f', 'i', 'c', 'i', 'e', 'n', 't', ' ', 'b', 'a', 'l', 'a', 'n', 'c', 'e', '\"', ',', '\"', 'd', 'a', 't', 'a', '_', 'c', 'h', 'a', 'n', 'g', 'e', 'd', '\"', ':', 'f', 'a', 'l', 's', 'e', ',', '\"', 'a', 'm', 'o', 'u', 'n', 't', '\"', ':', '1', '0'] ++ [0x7D] := by
  decide

/-! ## Decoding: payloads written out from the opcode table and the vectors -/

/-- V-CMD-16: surrounding whitespace is trimmed. -/
theorem test_parse_get_balance :
    parse [0x20, 0x09, 0x47, 0x45, 0x54, 0x5F, 0x42, 0x41, 0x4C, 0x41, 0x4E, 0x43, 0x45, 0x0D, 0x0A] = .getBalance := by
  decide

/-- V-ENC-6. -/
theorem test_parse_get_status :
    parse [0x47, 0x45, 0x54, 0x5F, 0x53, 0x54, 0x41, 0x54, 0x55, 0x53] = .getStatus := by
  decide

/-- V-ENC-7. -/
theorem test_parse_get_coin_count :
    parse [0x47, 0x45, 0x54, 0x5F, 0x43, 0x4F, 0x49, 0x4E, 0x5F, 0x43, 0x4F, 0x55, 0x4E, 0x54] = .getCoinCount := by
  decide

/-- V-ENC-8. -/
theorem test_parse_add_balance :
    parse [0x41, 0x44, 0x44, 0x5F, 0x42, 0x41, 0x4C, 0x41, 0x4E, 0x43, 0x45, 0x3D, 0x35] = .addBalance [0x35] := by
  decide

/-- V-CMD-13. -/
theorem test_parse_add_balance_empty :
    parse [0x41, 0x44, 0x44, 0x5F, 0x42, 0x41, 0x4C, 0x41, 0x4E, 0x43, 0x45, 0x3D] = .addBalance [] := by
  decide

/-- V-ENC-12. -/
theorem test_parse_sub_balance :
    parse [0x53, 0x55, 0x42, 0x5F, 0x42, 0x41, 0x4C, 0x41, 0x4E, 0x43, 0x45, 0x3D, 0x31, 0x30] = .subBalance [0x31, 0x30] := by
  decide

/-- V-ENC-13. -/
theorem test_parse_reset_balance :
    parse [0x52, 0x45, 0x53, 0x45, 0x54, 0x5F, 0x42, 0x41, 0x4C, 0x41, 0x4E, 0x43, 0x45] = .resetBalance := by
  decide

/-- V-ENC-14. -/
theorem test_parse_reset_count :
    parse [0x52, 0x45, 0x53, 0x45, 0x54, 0x5F, 0x43, 0x4F, 0x55, 0x4E, 0x54] = .resetCount := by
  decide

/-- V-CMD-17. -/
theorem test_parse_lower_case_is_unknown :
    parse [0x67, 0x65, 0x74, 0x5F, 0x62, 0x61, 0x6C, 0x61, 0x6E, 0x63, 0x65] = .unknown [0x67, 0x65, 0x74, 0x5F, 0x62, 0x61, 0x6C, 0x61, 0x6E, 0x63, 0x65] := by
  decide

/-- V-CMD-28. -/
theorem test_parse_suffix_is_unknown :
    parse [0x47, 0x45, 0x54, 0x5F, 0x42, 0x41, 0x4C, 0x41, 0x4E, 0x43, 0x45, 0x58] = .unknown [0x47, 0x45, 0x54, 0x5F, 0x42, 0x41, 0x4C, 0x41, 0x4E, 0x43, 0x45, 0x58] := by
  decide

/-- V-CMD-27. -/
theorem test_parse_whitespace_is_unknown :
    parse [0x20, 0x20, 0x20] = .unknown [] := by
  decide

/-- The model's convention for a payload as one number: the first byte is the least significant (log entry 4). -/
theorem test_table_word : decodeTableWord 80 0x5355544154535F544547 = some .getStatus ∧ decodeTableWord 0 0 = some (.unknown []) := by
  decide

/-- No frame carries 256 bytes. -/
theorem test_too_long_is_rejected : decodeBytes (List.replicate 256 0x41) = .error (.payloadTooLarge 256) := by
  decide

/-! ## Well-formedness: each check refuses -/

theorem test_wf_accepts : (Instr.addBalance [0x35]).wellFormed = true ∧ (Instr.unknown []).wellFormed = true := by decide

theorem test_wf_amount_too_long : (Instr.addBalance (List.replicate 244 0x35)).wellFormed = false := by decide

theorem test_wf_amount_ends_in_whitespace : (Instr.addBalance [0x35, 0x20]).wellFormed = false := by decide

theorem test_wf_sub_amount_too_long : (Instr.subBalance (List.replicate 244 0x35)).wellFormed = false := by decide

theorem test_wf_sub_amount_ends_in_whitespace : (Instr.subBalance [0x35, 0x0A]).wellFormed = false := by decide

theorem test_wf_unknown_too_long : (Instr.unknown (List.replicate 256 0x41)).wellFormed = false := by decide

theorem test_wf_unknown_starts_with_whitespace : (Instr.unknown [0x09, 0x41]).wellFormed = false := by decide

theorem test_wf_unknown_ends_in_whitespace : (Instr.unknown [0x41, 0x0D]).wellFormed = false := by decide

theorem test_wf_unknown_is_a_keyword : (Instr.unknown kwResetCount).wellFormed = false := by decide

theorem test_wf_unknown_is_an_addition : (Instr.unknown (kwAddBalance ++ [0x35])).wellFormed = false := by decide

theorem test_wf_unknown_is_a_subtraction : (Instr.unknown (kwSubBalance ++ [0x35])).wellFormed = false := by decide

/-! ## Commands: end wallet, length byte, checksum and save requests of the vectors -/

/-- V-CMD-1. -/
theorem test_get_balance :
    answered (.getBalance) (ready 5 2) = (5, 2, some 0x6C, some 0xA5, []) := by
  decide

/-- V-CMD-33. -/
theorem test_get_balance_widest :
    answered (.getBalance) (ready 4294967295 4294967295) = (4294967295, 4294967295, some 0x87, some 0x6F, []) := by
  decide

/-- V-CMD-2. -/
theorem test_get_status :
    answered (.getStatus) (ready 0 0) = (0, 0, some 0x6D, some 0x04, []) := by
  decide

/-- V-CMD-3. -/
theorem test_get_coin_count :
    answered (.getCoinCount) (ready 4 7) = (4, 7, some 0x6C, some 0xAB, []) := by
  decide

/-- V-CMD-7. -/
theorem test_add_fits_exactly :
    answered (.addBalance (dec 4294967295)) (ready 0 0) = (4294967295, 0, some 0x86, some 0x23, [(4294967295, 0)]) := by
  decide

/-- V-CMD-8. -/
theorem test_add_overflow :
    answered (.addBalance [0x31]) (ready 4294967295 9) = (4294967295, 9, some 0x82, some 0xFD, []) := by
  decide

/-- V-CMD-19. -/
theorem test_sub_to_zero :
    answered (.subBalance [0x35]) (ready 5 0) = (0, 0, some 0x6B, some 0x52, [(0, 0)]) := by
  decide

/-- V-CMD-20. -/
theorem test_sub_insufficient :
    answered (.subBalance [0x31, 0x30]) (ready 2 0) = (2, 0, some 0x7E, some 0xCC, []) := by
  decide

/-- V-CMD-10. -/
theorem test_add_amount_above_max :
    answered (.addBalance (dec 4294967296)) (ready 0 0) = (0, 0, some 0x77, some 0x40, []) := by
  decide

/-- V-CMD-22. -/
theorem test_sub_malformed_before_balance :
    answered (.subBalance [0x31, 0x5F, 0x30]) (ready 9 0) = (9, 0, some 0x77, some 0x49, []) := by
  decide

/-- V-CMD-24. -/
theorem test_reset_balance_at_zero :
    answered (.resetBalance) (ready 0 4) = (0, 4, some 0x6B, some 0x51, [(0, 4)]) := by
  decide

/-- V-CMD-25. -/
theorem test_reset_count :
    answered (.resetCount) (ready 1 1) = (1, 0, some 0x75, some 0x94, [(1, 0)]) := by
  decide

/-- V-CMD-26. -/
theorem test_unknown :
    answered (.unknown []) (ready 3 3) = (3, 3, some 0x78, some 0xBB, []) := by
  decide

/-- V-CMD-40: the mutation and the save stand when the response does not fit, and only the flag tells. -/
theorem test_mutation_without_response :
    let s := { ready 4 4 with cfg := { Config.default with resetCountAck := List.replicate 200 0x41 } }
    let t := after (exec .resetCount s)
    (t.bal, t.cnt, t.txq, t.txph, t.status) = (4, 0, [], .idle, 2) ∧ saveRequests t.outputs = [(4, 0)] := by
  decide

/-- The first step after reset runs the fetched command. -/
theorem test_fetch_word :
    (after (step (State.reset.withFetchWord 88 0x544E554F435F5445534552))).txq[1]? = some 0x75 := by
  decide

/-! ## FrameCodec -/

/-- V-ENC-3: a payload that is the marker is copied unchanged. -/
theorem test_encode_marker : encodeFrame [0x7E] = some [0x7E, 0x01, 0x7E, 0x7F] := by decide

/-- V-ENC-4: the longest frame. -/
theorem test_encode_longest : (encodeFrame (List.replicate 255 0x41)).bind List.getLast? = some 0xBE := by decide

/-- V-ENC-5. -/
theorem test_encode_too_long : encodeFrame (List.replicate 256 0x41) = none := by decide

/-- V-DEC-8: a corrupted frame is skipped. -/
theorem test_decode_resync :
    decodeFrame ([0x7E, 0x0B, 0x47, 0x45, 0x54, 0x5F, 0x42, 0x41, 0x4C, 0x41, 0x4E, 0x43, 0x45, 0xCF] ++
      [0x7E, 0x0A, 0x47, 0x45, 0x54, 0x5F, 0x53, 0x54, 0x41, 0x54, 0x55, 0x53, 0x2D]) =
      ⟨[], some kwGetStatus, [11]⟩ := by
  decide

/-- V-DEC-10: a marker inside the corrupted frame waits for more. -/
theorem test_decode_false_candidate :
    decodeFrame [0x7E, 0x01, 0x7E, 0x80, 0x7E, 0x00, 0x00] = ⟨[0x7E, 0x80, 0x7E, 0x00, 0x00], none, [1]⟩ := by
  decide

/-- V-DEC-12: a false candidate passes by chance. -/
theorem test_decode_false_acceptance :
    decodeFrame [0x7E, 0x03, 0x7E, 0x00, 0x00, 0x82] = ⟨[0x82], some [], [3]⟩ := by
  decide

/-- V-DEC-13: a length byte corrupted to 0. -/
theorem test_decode_short_length : decodeFrame [0x7E, 0x00, 0x41, 0x42] = ⟨[], none, [0]⟩ := by decide

/-- The frame of the one byte 0x00 is `7E 01 00 01`; with its length byte corrupted to 0 it passes as the empty frame
(log entry 16, by hand from R102). -/
theorem test_decode_wrong_length_can_pass : decodeFrame [0x7E, 0x00, 0x00, 0x01] = ⟨[0x01], some [], []⟩ := by decide

/-- V-DEC-15: garbage before, a partial frame behind. -/
theorem test_decode_between : decodeFrame [0x41, 0x7E, 0x00, 0x00, 0x7E, 0x05] = ⟨[0x7E, 0x05], some [], []⟩ := by
  decide

/-- R108: the byte past `RX_CAP` is lost and flagged. -/
theorem test_rx_overrun :
    let t := fireState (.rxIn 0x41) { ready 0 0 with rxbuf := List.replicate 512 0 }
    (t.rxbuf.length, t.status, t.outputs) = (512, 1, [.raised (.rxOverrun 0x41)]) := by
  decide

/-- V-TX-1: with a direction line nothing is emitted before it rises. -/
theorem test_tx_begin :
    let s := { ready 0 0 with txph := .send, txq := [0x7E, 0x00, 0x00] }
    enabled .txByte s = false ∧ (runEvents [.txBegin, .txByte] s).outputs = [.emit 0x7E] := by
  decide

/-- V-TX-2: without one the bytes leave at once and `DIR` stays 0. -/
theorem test_tx_without_line :
    let s := { ready 0 0 with cfg := { Config.default with hasDir := false }, txph := .send, txq := [0x7E] }
    enabled .txBegin s = false ∧ (runEvents [.txByte, .txEnd] s).txph = .idle ∧
      (runEvents [.txByte, .txEnd] s).dir = false := by
  decide

/-! ## PulseCounter, WalletStore, reset -/

/-- V-PUL-4 and V-PUL-5: the window is strict. -/
theorem test_debounce :
    (let t := runEvents (edgesAt [0, 100]) (ready 0 0); (t.bal, t.cnt, t.last) = (0, 0, some 0)) ∧
    (let t := runEvents (edgesAt [0, 101]) (ready 0 0); (t.bal, t.cnt, t.last) = (2, 2, some 101)) := by
  decide

/-- V-PUL-6 under `IGNORE`: the window runs from the last accepted edge. -/
theorem test_debounce_ignore :
    let s := { ready 0 0 with cfg := { Config.default with rejectPolicy := .ignore } }
    let t := runEvents (edgesAt [0, 50, 120]) s
    (t.bal, t.cnt, t.last) = (2, 2, some 120) := by
  decide

/-- V-PUL-10: one register saturates, the other counts. -/
theorem test_saturation :
    let t := runEvents (edgesAt [7]) (ready 4294967295 5)
    (t.bal, t.cnt, t.last) = (4294967295, 6, some 7) := by
  decide

/-- V-PUL-14: an edge of the boot interval is served after the restore. -/
theorem test_edge_before_boot :
    let t := runEvents [.edge, .pulse 5, .boot (.valid 3 3), .pulse 10] State.reset
    (t.bal, t.cnt, t.last) = (4, 4, some 10) := by
  decide

/-- V-PUL-18: the clock does not run backwards. -/
theorem test_clock : enabled (.pulse 120) { ready 0 0 with latch := true, clk := some 130 } = false := by decide

/-- V-BOOT-5: a pair that does not fit is corrupt. -/
theorem test_boot_out_of_range :
    let t := fireState (.boot (.valid 4294967296 1)) State.reset
    (t.bal, t.cnt, t.booted, t.status, saveRequests t.outputs) = (0, 0, true, 4, [(0, 0)]) := by
  decide

/-- V-BOOT-4: the balance is dropped after the load. -/
theorem test_boot_zero_after_load :
    let s := State.resetWith { Config.default with zeroBalanceAfterLoad := true }
    let t := fireState (.boot (.valid 7 9)) s
    (t.bal, t.cnt, saveRequests t.outputs) = (0, 9, []) := by
  decide

/-- V-RESET-2: received bytes, the waiting command and the captured edge are lost. -/
theorem test_reset :
    let s := { ready 5 4 with rxbuf := [0x7E, 0x05], slot := some kwResetCount, latch := true, status := 7 }
    fireState .reset s = State.reset := by
  decide

/-- R230: the codes. -/
theorem test_error_codes :
    [errorCode (.frameCorrupt 0), errorCode .frameTimeout, errorCode (.payloadTooLarge 256), errorCode (.invalidAmount []),
      errorCode (.insufficientBalance 1), errorCode .persistenceFailure, errorCode (.unknownCommand []),
      errorCode (.balanceOverflow 1), errorCode (.rxOverrun 0)] = [1, 2, 3, 4, 5, 6, 7, 8, 9] := by
  decide

/-! ## Witnesses: for every statement with hypotheses, a concrete case that meets them together -/

/-- The shape of a state, from conditions that can be evaluated. -/
theorem wf_of (s : State) (legal : s.cfg.Legal)
    (h : s.bal ≤ s.cfg.balMax ∧ s.cnt ≤ s.cfg.cntMax ∧ s.rxbuf.length ≤ s.cfg.rxCap ∧
      s.slot.all (fun p => decide (p.length ≤ 255)) = true ∧ s.txq.length ≤ 258 ∧
      (s.txph = .idle → s.txq = [] ∧ s.dir = false) ∧ (s.txph = .send → s.txq = [] → s.dir = s.cfg.hasDir) ∧
      (s.dir = true → s.cfg.hasDir = true) ∧ s.last = s.clk ∧ s.booted = true) : s.Wf := by
  obtain ⟨hb, hc, hr, hs, hq, hi, hd, hl, hk, hboot⟩ := h
  refine ⟨legal, hb, hc, hr, fun p hp => ?_, hq, fun h => (hi h).1, fun h => (hi h).2, hd, hl,
    fun t ht => ⟨t, hk ▸ ht, le_rfl⟩, fun h => absurd h (by simp [hboot])⟩
  simpa [hp] using hs

theorem legal_default : Config.default.Legal := by decide

/-- `BAL_BITS = CNT_BITS = bits`. -/
def wide (bits : Nat) : Config := { Config.default with balBits := bits, cntBits := bits }

/-- A response frame is being sent. -/
def sending : State := { ready 5 2 with txph := .send, dir := true, txq := [0x7E, 0x00, 0x00] }

/-- An edge is captured; the last accepted one was served at 5, the default window is 100. -/
def edgeWaits (b c : Nat) : State := { ready b c with latch := true, last := some 5, clk := some 5 }

theorem witness_ParseOfEncode_longest :
    (Instr.addBalance (List.replicate 243 0x35)).wellFormed = true ∧
    (Instr.subBalance (0x20 :: List.replicate 242 0x35)).wellFormed = true ∧
    (Instr.unknown (List.replicate 255 0x41)).wellFormed = true := by
  decide

theorem witness_EncodeOfParse_longest : (List.replicate 255 (0x41 : Byte)).length ≤ 255 := by decide

theorem witness_DecimalText_max : 4294967295 ≤ Config.default.balMax := by decide

theorem witness_ResponsesFit_widest :
    let s := State.withFetchWord { State.resetWith (wide 126) with bal := (wide 126).balMax, cnt := (wide 126).cntMax } 0 0
    s.Wf ∧ max (dec s.cfg.balMax).length (dec s.cfg.cntMax).length = 38 ∧ 38 ≤ 38 ∧
      s.cfg.statusText.length + 3 * 38 ≤ 151 ∧ s.cfg.resetCountAck.length + 3 * 38 ≤ 151 :=
  ⟨wf_of _ (by decide) (by decide), by decide⟩

theorem witness_ResponsesFitAtEveryWidth :
    let s := State.withFetchWord { State.resetWith (wide 130) with cnt := (wide 130).cntMax } 0 0
    s.Wf ∧ max (dec s.cfg.balMax).length (dec s.cfg.cntMax).length = 40 ∧ 40 ≤ 43 ∧
      s.cfg.statusText.length + 3 * 40 ≤ 151 ∧ s.cfg.resetCountAck.length + 3 * 40 ≤ 151 :=
  ⟨wf_of _ (by decide) (by decide), by decide⟩

/-- R82 and R83 by hand: 103 bytes of keys and texts beside four 40-digit numbers. -/
theorem test_response_of_four_forty_digit_numbers :
    (serialize ⟨.success, 10 ^ 39, 10 ^ 39, dec (10 ^ 39), true, 10 ^ 39⟩).length = 263 := by
  decide

theorem witness_AddBalance_fits_exactly :
    let s := ready 4294967290 9
    amount s.cfg [0x35] = some 5 ∧ s.bal + 5 = s.cfg.balMax ∧ 7 ≤ s.cfg.balMax := by
  decide

theorem witness_AddBalance_overflows_by_one :
    let s := ready 4294967291 9
    amount s.cfg [0x35] = some 5 ∧ s.cfg.balMax < s.bal + 5 := by
  decide

theorem witness_SubBalance_to_zero :
    let s := ready 5 9
    amount s.cfg [0x30, 0x35] = some 5 ∧ 5 ≤ s.bal := by
  decide

theorem witness_SubBalance_short_by_one :
    let s := ready 4 9
    amount s.cfg [0x35] = some 5 ∧ s.bal < 5 := by
  decide

theorem witness_MalformedAmount :
    amount Config.default [] = none ∧
    (∃ b ∈ ([0x2D, 0x35] : Bytes), isDigit b = false) ∧ Config.default.balMax < digitsValue (dec 4294967296) ∧
    amount Config.default [0x2D, 0x35] = none := by
  decide

theorem witness_Queries :
    (∀ q ∈ [Instr.getBalance, .getStatus, .getCoinCount], q ∈ [Instr.getBalance, .getStatus, .getCoinCount]) ∧
      (ready 5 2).txq = [] :=
  ⟨fun _ h => h, rfl⟩

theorem witness_CommandsMove : (ready 4294967295 0).bal ≤ (ready 4294967295 0).cfg.balMax := by decide

theorem witness_StepRuns :
    let s := { ready 5 2 with slot := some kwGetCoinCount, agenda := [.cmd, .edge] }
    s.cfg.Legal ∧ s.agenda = .cmd :: [.edge] ∧ s.booted = true ∧ s.slot = some kwGetCoinCount ∧ s.txph = .idle := by
  decide

theorem witness_CommandWaits :
    State.reset.booted = false ∧ (ready 0 0).slot = none ∧ { sending with slot := some [] }.txph = .send := by
  decide

theorem witness_StepFollows :
    (Config.default.Legal ∧ { State.reset with agenda := [.edge, .dec] }.agenda = .edge :: [.dec]) ∧
    (State.reset.cfg.Legal ∧ State.reset.agenda = []) ∧
    enabled .cmd State.reset = false ∧
    ¬ { Config.default with rxCap := 257 }.Legal ∧ ¬ { Config.default with balBits := 7 }.Legal := by
  decide

theorem witness_FrameOnTheLine :
    let s := { ready 5 2 with agenda := [.rxIn 0x7E, .rxIn 0x01, .rxIn 0x7E, .rxIn 0x7F, .dec, .cmd, .edge] }
    s.cfg.Legal ∧ s.booted = true ∧ s.txph = .idle ∧ s.slot = none ∧ s.rxbuf = [] ∧
      encodeFrame [0x7E] = some [0x7E, 0x01, 0x7E, 0x7F] ∧
      s.agenda = ([0x7E, 0x01, 0x7E, 0x7F] : Bytes).map Event.rxIn ++ [.dec, .cmd] ++ [.edge] := by
  decide

theorem witness_FrameLayout :
    (List.replicate 255 (0x7E : Byte)).length ≤ 255 ∧ 255 < (List.replicate 256 (0x7E : Byte)).length := by
  decide

theorem witness_Checksum :
    ((0 : Nat) ≤ 255 ∧ (255 : Nat) ≤ 255 ∧ (0 : Nat) ≠ 255) ∧
    (1 < ([0x01, 0x02] : Bytes).length ∧ ([0x01, 0x02] : Bytes).getD 1 0 ≠ 0x03) ∧
    ([0x01, 0x02] : Bytes).Perm [0x02, 0x01] := by
  decide

theorem witness_DecodeInverts : encodeFrame [] = some [0x7E, 0x00, 0x00] := by decide

theorem witness_DecodedPayload : (decodeFrame [0x41, 0x7E, 0x00, 0x00, 0x7E]).payload = some [] := by decide

theorem witness_Garbage : (0x7E : Byte) ∉ ([0x00, 0x7D, 0x7F] : Bytes) := by decide

/-- Both ways to wait: fewer than 3 bytes, and one byte short of what the length byte asks for. -/
theorem witness_IncompleteCandidate :
    ([0x7E, 0x00] : Bytes).length < 3 ∧
    ([0x7E, 0x02, 0x41, 0x42] : Bytes).length < (([0x02, 0x41, 0x42] : Bytes).getD 0 0).toNat + 3 ∧
    (0x7E : Byte) ∉ ([0x41] : Bytes) ∧ (decodeFrame [0x41, 0x7E, 0x02]).payload = none := by
  decide

theorem witness_Mismatch : ([0x7E] : Bytes).length = (0x01 : Byte).toNat ∧ (0x80 : Byte) ≠ checksum 1 [0x7E] := by
  decide

theorem witness_CorruptedFrame :
    ([0x41] : Bytes).length ≤ 255 ∧ (0x43 : Byte) ≠ checksum ([0x41] : Bytes).length [0x41] ∧
    (0x7E : Byte) ∉ BitVec.ofNat 8 ([0x41] : Bytes).length :: [0x41] ++ [0x43] ∧
    encodeFrame [0x42] = some [0x7E, 0x01, 0x42, 0x43] := by
  decide

theorem witness_PartialFrame :
    encodeFrame [0x42] = some [0x7E, 0x01, 0x42, 0x43] ∧
      0 < ([0x7E, 0x01, 0x42, 0x43] : Bytes).length ∧ 3 < ([0x7E, 0x01, 0x42, 0x43] : Bytes).length := by
  decide

theorem witness_PendingPayloads :
    let s := { ready 0 0 with slot := some kwGetStatus, rxbuf := [0x7E, 0x00] }
    Event.cmd ≠ .reset ∧ enabled .cmd s = true ∧ Event.rxIn 0x00 ≠ .reset ∧ s.rxbuf.length < s.cfg.rxCap ∧
    { s with rxbuf := List.replicate 512 0x41 }.cfg.rxCap ≤ { s with rxbuf := List.replicate 512 0x41 }.rxbuf.length ∧
    Event.dec ≠ .reset ∧ stepName .dec ≠ .cmd ∧ stepName .dec ≠ .rxIn := by
  decide

theorem witness_ReceivedByte :
    { ready 0 0 with rxbuf := List.replicate 511 0x41 }.rxbuf.length < (ready 0 0).cfg.rxCap ∧
    (ready 0 0).cfg.rxCap ≤ { ready 0 0 with rxbuf := List.replicate 512 0x41 }.rxbuf.length ∧
    (let s := { ready 0 0 with rxbuf := 0x7E :: 0xFF :: List.replicate 255 0x41 }
     s.cfg.Legal ∧ s.slot = none ∧ enabled .dec s = false) := by
  decide

theorem witness_DecoderStep :
    enabled .dec { ready 0 0 with rxbuf := [0x41] } = true ∧
    enabled .dec { ready 0 0 with rxbuf := [0x7E, 0x00, 0x00] } = true := by
  decide

theorem witness_Transmit :
    (enabled .txByte sending = true ∧ sending.txq = 0x7E :: [0x00, 0x00]) ∧
    enabled .txBegin { sending with dir := false } = true ∧ enabled .txEnd { sending with txq := [] } = true := by
  decide

theorem witness_NoDirectionLine :
    let s := { sending with cfg := { Config.default with hasDir := false }, dir := false }
    s.cfg.hasDir = false ∧ s.dir = false ∧ s.txph = .send ∧ s.txq ≠ [] := by
  decide

theorem witness_QueuedFrame : sending.Wf ∧ sending.txph = .send := ⟨wf_of _ (by decide) (by decide), rfl⟩

theorem witness_EdgesAreCaptured : (edgeWaits 0 0).latch = true := by decide

/-- The first millisecond past the window, at both ends of the registers; and the first edge of all. -/
theorem witness_AcceptedEdge :
    (enabled (.pulse 106) (edgeWaits 4294967294 4294967295) = true ∧
      (edgeWaits 4294967294 4294967295).bal < (edgeWaits 0 0).cfg.balMax ∧
      (edgeWaits 4294967294 4294967295).cnt = (edgeWaits 0 0).cfg.cntMax ∧
      ∀ t, (edgeWaits 4294967294 4294967295).last = some t → t + (edgeWaits 0 0).cfg.debounceWindowMs < 106) ∧
    (edgeWaits 4294967295 4294967294).bal = (edgeWaits 0 0).cfg.balMax ∧
    (edgeWaits 4294967295 4294967294).cnt < (edgeWaits 0 0).cfg.cntMax ∧
    enabled (.pulse 0) { ready 0 0 with latch := true } = true ∧
    ∀ t, { ready 0 0 with latch := true }.last = some t → t + (edgeWaits 0 0).cfg.debounceWindowMs < 0 := by
  refine ⟨⟨by decide, by decide, by decide, fun t h => ?_⟩, by decide, by decide, by decide, nofun⟩
  obtain rfl : 5 = t := Option.some.inj h
  decide

/-- The last millisecond of the window, under each policy. -/
theorem witness_RejectedEdge :
    enabled (.pulse 105) (edgeWaits 9 9) = true ∧ (edgeWaits 9 9).last = some 5 ∧
    105 ≤ 5 + (edgeWaits 9 9).cfg.debounceWindowMs ∧ (edgeWaits 9 9).cfg.rejectPolicy = .zero ∧
    (let s := { edgeWaits 9 9 with cfg := { Config.default with rejectPolicy := .ignore } }
     enabled (.pulse 105) s = true ∧ s.last = some 5 ∧ 105 ≤ 5 + s.cfg.debounceWindowMs ∧
       s.cfg.rejectPolicy = .ignore) := by
  decide

theorem witness_PulseWaits :
    enabled (.pulse 4) (edgeWaits 0 0) = false ∧ enabled (.pulse 9) (ready 0 0) = false ∧
    enabled (.pulse 9) { State.reset with latch := true } = false := by
  decide

theorem witness_Clock :
    Event.pulse 6 ≠ .reset ∧ (edgeWaits 0 0).clk = some 5 ∧
      ∀ x, (edgeWaits 0 0).last = some x → ∃ c, (edgeWaits 0 0).clk = some c ∧ x ≤ c :=
  ⟨nofun, rfl, fun x h => ⟨x, h, le_rfl⟩⟩

theorem witness_Ringing :
    let s := { edgeWaits 4294967295 4 with latch := false }
    s.Wf ∧ s.booted = true ∧ (∀ c, s.clk = some c → c ≤ 106) ∧
      (∀ t, s.last = some t → t + s.cfg.debounceWindowMs < 106) ∧
      (106 :: 106 :: [206]).Pairwise (· ≤ ·) ∧ ∀ t ∈ 106 :: [206], t ≤ 106 + s.cfg.debounceWindowMs := by
  refine ⟨wf_of _ (by decide) (by decide), rfl, fun c h => ?_, fun t h => ?_, by decide, by decide⟩
  · obtain rfl : 5 = c := Option.some.inj h
    decide
  · obtain rfl : 5 = t := Option.some.inj h
    decide

theorem witness_Boot :
    State.reset.booted = false ∧ State.reset.cfg.balMax < 4294967296 ∧ State.reset.cfg.cntMax < 4294967296 ∧
      4294967295 ≤ State.reset.cfg.balMax ∧ 4294967295 ≤ State.reset.cfg.cntMax := by
  decide

theorem witness_ChangedWallet :
    (ready 4294967290 4).Wf ∧ commandChanges (.addBalance [0x35]) (ready 4294967290 4) = true ∧
      (ready 5 4).Wf ∧ commandChanges (.subBalance [0x35]) (ready 5 4) = true ∧
      commandChanges .resetBalance (ready 5 4) = true ∧ commandChanges .resetCount (ready 5 4) = true :=
  ⟨wf_of _ (by decide) (by decide), by decide, wf_of _ (by decide) (by decide), by decide⟩

theorem witness_ResetState : { Config.default with balBits := 8, cntBits := 8, rxCap := 258 }.Legal := by decide

theorem witness_EveryStep :
    { ready 5 2 with agenda := [.edge] }.Wf ∧
      step { ready 5 2 with agenda := [.edge] } = .next { ready 5 2 with latch := true } :=
  ⟨wf_of _ (by decide) (by decide), by simp [step, legal_default, ready, State.reset, State.resetWith, nextEvent,
    takeEvent, fire, enabled, perform, edge, State.setLatch, State.setAgenda]⟩

theorem witness_NothingIsFatal : (ready 5 2).cfg.Legal := by decide

theorem witness_StatusIsSticky :
    Event.cmd ≠ .reset ∧ hasFlag .rxOverrun { ready 0 0 with status := 1 } = true ∧
      hasFlag .txTooLarge { ready 0 0 with status := 2 } = true ∧
      hasFlag .persistFault { ready 0 0 with status := 4 } = true := by
  decide

/-- Every clause of the table of R20 has a step that it restrains. -/
theorem witness_OnlyTheNamedSteps :
    stepName .edge ∉ [StepName.pulse, .cmd, .boot, .reset] ∧ stepName .txByte ∉ [StepName.pulse, .cmd, .boot, .reset] ∧
      stepName .cmd ∉ [StepName.pulse, .reset] ∧ stepName .cmd ∉ [StepName.edge, .pulse, .reset] ∧
      stepName .cmd ∉ [StepName.rxIn, .dec, .reset] ∧ stepName (.rxIn 0) ∉ [StepName.dec, .cmd, .reset] ∧
      stepName .txEnd ∉ [StepName.cmd, .txByte, .reset] ∧ stepName .txByte ∉ [StepName.cmd, .txEnd, .reset] ∧
      stepName .cmd ∉ [StepName.txBegin, .txEnd, .reset] ∧ stepName .dec ∉ [StepName.rxIn, .cmd, .boot, .reset] ∧
      stepName .cmd ∉ [StepName.boot, .reset] ∧ stepName .reset ∉ [StepName.cmd, .boot] ∧
      stepName .reset ≠ .txByte := by
  decide

theorem witness_Outputs :
    (ready 0 0).cfg.hasDir = true ∧ { Config.default with hasDir := false }.hasDir = false := by
  decide

/-! A weakly fair run: the block's steps in turn, from a booted block whose one command waits. No edge comes, so no
pulse is ever enabled, and `BOOT` is never enabled again. -/

/-- The block's own steps in turn. -/
def turn : Nat → Event
  | 0 => .dec
  | 1 => .txBegin
  | 2 => .txByte
  | 3 => .txEnd
  | 4 => .cmd
  | 5 => .pulse 0
  | _ => .boot .absent

def fairRun (n : Nat) : Event := turn (n % 7)

def fairStart : State := { ready 5 2 with slot := some kwGetStatus }

theorem turn_latch (k : Nat) (s : State) (h : s.latch = false) : (fireState (turn k) s).latch = false := by
  have fired : ∀ e : Event, (e = .dec ∨ e = .txBegin ∨ e = .txByte ∨ e = .txEnd ∨ e = .cmd ∨ e = .pulse 0 ∨
      e = .boot .absent) → (fireState e s).latch = false := by
    rintro e (rfl | rfl | rfl | rfl | rfl | rfl | rfl) <;> unfold fireState fire <;> split <;>
      rename_i t ht <;> split at ht <;> simp_all [perform]
    · subst ht; simp [decStep_eq, h]
    · subst ht; simp [txBegin, h]
    · subst ht; unfold txByte; split <;> simp [h]
    · subst ht; simp [txEnd, h]
    · unfold cmdStep at ht
      split at ht
      · simp_all
      · obtain ⟨r, raised, he, -⟩ := exec_cases (parse ‹Bytes›) (s.setSlot none)
        rw [he] at ht
        simp only [Host.Outcome.next.injEq] at ht
        subst ht
        simp [h]
    · obtain ⟨-, hp⟩ | ⟨-, -, hp⟩ | ⟨-, -, hp⟩ := pulse_cases 0 s <;> rw [ht] at hp <;> subst hp <;> rfl
    · subst ht
      obtain ⟨b, c, hv, -⟩ | ⟨-, hb⟩ | ⟨hv, -⟩ := boot_cases .absent s
      · cases hv
      · simp [hb, h]
      · exact absurd rfl hv
  exact fired _ (by unfold turn; split <;> simp)

theorem fairRun_latch (n : Nat) : (stateAt fairRun fairStart n).latch = false := by
  induction n with
  | zero => rfl
  | succ n ih => exact turn_latch _ _ ih

theorem fairRun_turn (n k : Nat) (h : k < 7) : n ≤ 7 * n + k ∧ fairRun (7 * n + k) = turn k := by
  refine ⟨by omega, ?_⟩
  rw [fairRun, Nat.mul_add_mod, Nat.mod_eq_of_lt h]

theorem witness_WeakFairness :
    WeaklyFair fairRun fairStart ∧ (∀ m, 0 ≤ m → fairRun m ≠ .reset) ∧ (stateAt fairRun fairStart 0).booted = true ∧
      (stateAt fairRun fairStart 0).slot = some kwGetStatus := by
  refine ⟨fun k hk n hn => ?_, fun m _ => ?_, rfl, rfl⟩
  · have served : ∀ j < 7, stepName (turn j) = k → (∀ e s, stepName e = k → enabled e s = true →
        s.latch = false → enabled (turn j) s = true) →
        ∃ m, n ≤ m ∧ stepName (fairRun m) = k ∧ enabled (fairRun m) (stateAt fairRun fairStart m) = true := by
      intro j hj hname he
      obtain ⟨hle, hrun⟩ := fairRun_turn n j hj
      obtain ⟨e, hek, hen⟩ := hn _ hle
      exact ⟨_, hle, hrun ▸ hname, hrun ▸ he e _ hek hen (fairRun_latch _)⟩
    cases k <;> simp only [isOwnStep, reduceCtorEq] at hk
    · exact served 0 (by decide) rfl fun e s h he _ => by cases e <;> first | exact he | cases h
    · exact served 1 (by decide) rfl fun e s h he _ => by cases e <;> first | exact he | cases h
    · exact served 2 (by decide) rfl fun e s h he _ => by cases e <;> first | exact he | cases h
    · exact served 3 (by decide) rfl fun e s h he _ => by cases e <;> first | exact he | cases h
    · refine served 5 (by decide) rfl fun e s h he hl => ?_
      cases e <;> first | cases h; done | simp [enabled, pulseEnabled, edgePending, hl] at he
    · exact served 4 (by decide) rfl fun e s h he _ => by cases e <;> first | exact he | cases h
    · exact served 6 (by decide) rfl fun e s h he _ => by cases e <;> first | exact he | cases h
  · unfold fairRun turn; split <;> simp

end Sys2Proof.Tests
end

section
/-! PROOFS. The decimal text of a number, its digits and how an amount text is read back (00_scope.md R10,
30_encoding.md R79). -/

namespace Sys2Proof.Machine

/-! ## Single digits -/

theorem digitByte_toNat {d : Nat} (h : d < 10) : (digitByte d).toNat = 0x30 + d := by
  rw [digitByte, BitVec.toNat_ofNat, Nat.mod_eq_of_lt (by omega)]

theorem isDigit_digitByte {d : Nat} (h : d < 10) : isDigit (digitByte d) = true := by
  simp only [isDigit, digitByte_toNat h, Bool.and_eq_true, decide_eq_true_eq]
  omega

theorem digitByte_ne_zeroDigit {d : Nat} (hpos : 0 < d) (h : d < 10) : digitByte d ≠ 0x30 := by
  intro heq
  have hval : (digitByte d).toNat = 0x30 := congrArg BitVec.toNat heq
  rw [digitByte_toNat h] at hval
  omega

/-! ## The equations of `dec` -/

/-- The fuel of `decDigits` is no part of the text: any fuel above the number gives the same digits. -/
theorem decDigits_eq_of_lt {fuel fuel' v : Nat} (h : v < fuel) (h' : v < fuel') :
    decDigits fuel v = decDigits fuel' v := by
  induction fuel generalizing fuel' v with
  | zero => omega
  | succ fuel ih =>
    obtain _ | fuel' := fuel'
    · omega
    · by_cases hv : v < 10
      · simp only [decDigits, if_pos hv]
      · simp only [decDigits, if_neg hv]
        rw [ih (fuel' := fuel') (v := v / 10) (by omega) (by omega)]

theorem dec_of_lt {v : Nat} (h : v < 10) : dec v = [digitByte v] := by
  simp only [dec, decDigits, if_pos h]

theorem dec_of_le {v : Nat} (h : 10 ≤ v) : dec v = dec (v / 10) ++ [digitByte (v % 10)] := by
  rw [dec, decDigits, if_neg (by omega), decDigits_eq_of_lt (by omega) (Nat.lt_succ_self (v / 10)), ← dec]

/-- Induction along the digits of `dec v`: one digit alone, or one more digit behind a decimal text. -/
theorem dec_induction {P : Nat → Bytes → Prop} (single : ∀ v, v < 10 → P v [digitByte v])
    (more : ∀ v, 10 ≤ v → P (v / 10) (dec (v / 10)) → P v (dec (v / 10) ++ [digitByte (v % 10)])) (v : Nat) :
    P v (dec v) := by
  induction v using Nat.strongRecOn with
  | ind v ih =>
    by_cases h : v < 10
    · exact dec_of_lt h ▸ single v h
    · rw [dec_of_le (by omega)]
      exact more v (by omega) (ih (v / 10) (by omega))

theorem dec_ne_nil (v : Nat) : dec v ≠ [] :=
  dec_induction (P := fun _ text => text ≠ []) (fun _ _ => by simp) (fun _ _ _ => by simp) v

theorem isDigit_of_mem_dec (v : Nat) : ∀ b ∈ dec v, isDigit b = true := by
  refine dec_induction (P := fun _ text => ∀ b ∈ text, isDigit b = true) (fun v h b hb => ?_)
    (fun v _ ih b hb => ?_) v
  · rw [List.mem_singleton.mp hb]
    exact isDigit_digitByte h
  · obtain hb | hb := List.mem_append.mp hb
    · exact ih b hb
    · rw [List.mem_singleton.mp hb]
      exact isDigit_digitByte (by omega)

theorem head?_dec_ne_zeroDigit (v : Nat) : 0 < v → (dec v).head? ≠ some 0x30 := by
  refine dec_induction (P := fun v text => 0 < v → text.head? ≠ some 0x30) (fun v h hpos => ?_)
    (fun v h ih _ => ?_) v
  · simpa using digitByte_ne_zeroDigit hpos h
  · rw [List.head?_append_of_ne_nil _ (dec_ne_nil _)]
    exact ih (by omega)

/-! ## Reading a digit string -/

theorem digitsValue_concat (a : Bytes) (b : Byte) : digitsValue (a ++ [b]) = 10 * digitsValue a + (b.toNat - 0x30) := by
  simp [digitsValue]

theorem digitsValue_dec (v : Nat) : digitsValue (dec v) = v := by
  refine dec_induction (P := fun v text => digitsValue text = v) (fun v h => ?_) (fun v _ ih => ?_) v
  · have hread : digitsValue [digitByte v] = (digitByte v).toNat - 0x30 := by simp [digitsValue]
    rw [hread, digitByte_toNat h]
    omega
  · rw [digitsValue_concat, ih, digitByte_toNat (by omega)]
    omega

/-- Leading zeros do not change the number. -/
theorem digitsValue_replicate_zero_append (zeros : Nat) (a : Bytes) :
    digitsValue (List.replicate zeros 0x30 ++ a) = digitsValue a := by
  induction zeros with
  | zero => rfl
  | succ zeros ih => exact ih

/-- What `amount` answers on a string of one or more digits whose value fits. -/
theorem amount_of_digits {c : Config} {a : Bytes} (hne : a ≠ []) (hdigits : ∀ b ∈ a, isDigit b = true)
    (hle : digitsValue a ≤ c.balMax) : amount c a = some (digitsValue a) := by
  have hshape : 1 ≤ a.length ∧ a.all isDigit = true :=
    ⟨List.length_pos_of_ne_nil hne, List.all_eq_true.mpr hdigits⟩
  rw [amount, if_pos hshape, if_pos hle]

theorem amount_replicate_zero_append_dec {c : Config} {v : Nat} (zeros : Nat) (h : v ≤ c.balMax) :
    amount c (List.replicate zeros 0x30 ++ dec v) = some v := by
  have hvalue : digitsValue (List.replicate zeros 0x30 ++ dec v) = v := by
    rw [digitsValue_replicate_zero_append, digitsValue_dec]
  have hdigits : ∀ b ∈ List.replicate zeros 0x30 ++ dec v, isDigit b = true := by
    intro b hb
    obtain hb | hb := List.mem_append.mp hb
    · rw [List.eq_of_mem_replicate hb]
      decide
    · exact isDigit_of_mem_dec v b hb
  rw [amount_of_digits (List.append_ne_nil_of_right_ne_nil _ (dec_ne_nil v)) hdigits (by rwa [hvalue]), hvalue]

/-- Settles O6: the digits of `dec` by induction along `dec`, the reading by `amount` from their value. -/
theorem decimalTextIsShortestAndReadsBack : Obligations.DecimalTextIsShortestAndReadsBack :=
  ⟨fun v => ⟨isDigit_of_mem_dec v, digitsValue_dec v, head?_dec_ne_zeroDigit v,
      fun hv => hv ▸ dec_of_lt (by decide)⟩,
    fun _ _ zeros h => amount_replicate_zero_append_dec zeros h⟩

end Sys2Proof.Machine
end

section
/-! PROOFS. The machine's step, one equation for each form of the environment's offer (00_scope.md R11, 20_memory.md
R56, 70_reset_and_hazards.md R262). -/

namespace Sys2Proof.Machine

theorem fire_of_not_enabled {e : Event} {s : State} (h : enabled e s = false) : fire e s = .next s := by
  simp [fire, h]

theorem step_of_legal {s : State} (h : s.cfg.Legal) : step s = fire (nextEvent s) (takeEvent s) := if_pos h

theorem step_of_not_legal {s : State} (h : ¬ s.cfg.Legal) : step s = .refused .illegalConfiguration := if_neg h

theorem nextEvent_of_cons {s : State} {e : Event} {later : List Event} (h : s.agenda = e :: later) :
    nextEvent s = e := by
  simp only [nextEvent, h]

theorem nextEvent_of_nil {s : State} (h : s.agenda = []) : nextEvent s = Config.environment s.tick := by
  simp only [nextEvent, h]

theorem takeEvent_of_cons {s : State} {e : Event} {later : List Event} (h : s.agenda = e :: later) :
    takeEvent s = { s with agenda := later } := by
  simp only [takeEvent, h, State.setAgenda]

theorem takeEvent_of_nil {s : State} (h : s.agenda = []) : takeEvent s = { s with tick := s.tick + 1 } := by
  simp only [takeEvent, h, State.setAgenda]

theorem step_of_agenda_cons {s : State} {e : Event} {later : List Event} (legal : s.cfg.Legal)
    (h : s.agenda = e :: later) : step s = fire e { s with agenda := later } := by
  rw [step_of_legal legal, nextEvent_of_cons h, takeEvent_of_cons h]

theorem step_of_agenda_nil {s : State} (legal : s.cfg.Legal) (h : s.agenda = []) :
    step s = fire (Config.environment s.tick) { s with tick := s.tick + 1 } := by
  rw [step_of_legal legal, nextEvent_of_nil h, takeEvent_of_nil h]

/-- Settles O24, clause by clause from the equations of `step` and `fire`. -/
theorem stepFollowsTheEnvironment : Obligations.StepFollowsTheEnvironment :=
  ⟨fun _ _ _ legal h => step_of_agenda_cons legal h, fun _ legal h => step_of_agenda_nil legal h,
    fun _ _ h => fire_of_not_enabled h, fun _ h => step_of_not_legal h⟩

end Sys2Proof.Machine
end

section
/-! PROOFS. The state after reset has the shape `State.Wf` (10_state.md R42, 70_reset_and_hazards.md R262). -/

namespace Sys2Proof.Machine

theorem hasFlag_resetWith (f : StatusFlag) (c : Config) : hasFlag f (State.resetWith c) = false := by
  simp [hasFlag]

theorem State.resetWith_wf {c : Config} (h : c.Legal) : (State.resetWith c).Wf where
  legal := h
  bal_le := Nat.zero_le _
  cnt_le := Nat.zero_le _
  rxbuf_le := Nat.zero_le _
  slot_le := by simp
  txq_le := Nat.zero_le _
  idle_txq := fun _ => State.resetWith_txq c
  idle_dir := fun _ => State.resetWith_dir c
  drained_dir := by simp
  dir_line := by simp
  last_le_clk := by simp
  unbooted := fun _ => ⟨rfl, rfl, rfl, rfl, rfl, hasFlag_resetWith _ c, hasFlag_resetWith _ c⟩

/-- Settles O54: the reset state meets each clause of `State.Wf`, and the default configuration is legal. -/
theorem resetStateIsWellFormed : Obligations.ResetStateIsWellFormed :=
  ⟨fun _ h => State.resetWith_wf h, State.resetWith_wf (by decide)⟩

end Sys2Proof.Machine
end

section
/-! PROOFS. When each step is enabled, as a condition on the state (10_state.md R34; 40_frame_codec.md R109 to R114,
41_pulse_counter.md R142 and R150, 42_wallet_store.md R160, 43_command_processor.md R180). -/

namespace Sys2Proof.Machine

theorem clockAllows_iff {clk : Option Nat} {now : Nat} :
    clockAllows clk now = true ↔ ∀ c, clk = some c → c ≤ now := by
  cases clk <;> simp [clockAllows]

theorem enabled_dec_iff {s : State} :
    enabled .dec s = true ↔
      s.slot = none ∧ ¬ ((decodeFrame s.rxbuf).buffer = s.rxbuf ∧ (decodeFrame s.rxbuf).payload = none) := by
  simp [enabled, decEnabled, imp_iff_not_or, Option.isSome_iff_ne_none]

theorem enabled_txBegin_iff {s : State} :
    enabled .txBegin s = true ↔ s.txph = .send ∧ s.dir = false ∧ s.cfg.hasDir = true ∧ s.txq ≠ [] := by
  simp [enabled, txBeginEnabled, and_assoc]

theorem enabled_txByte_iff {s : State} :
    enabled .txByte s = true ↔ s.txph = .send ∧ s.txq ≠ [] ∧ (s.dir = true ∨ s.cfg.hasDir = false) := by
  simp [enabled, txByteEnabled, and_assoc]

theorem enabled_txEnd_iff {s : State} : enabled .txEnd s = true ↔ s.txph = .send ∧ s.txq = [] := by
  simp [enabled, txEndEnabled]

theorem enabled_pulse_iff {now : Nat} {s : State} :
    enabled (.pulse now) s = true ↔ s.latch = true ∧ s.booted = true ∧ ∀ c, s.clk = some c → c ≤ now := by
  simp [enabled, pulseEnabled, edgePending, edgeServiceEnabled, clockAllows_iff, and_assoc]

theorem enabled_cmd_iff {s : State} :
    enabled .cmd s = true ↔ s.booted = true ∧ (∃ p, s.slot = some p) ∧ s.txph = .idle := by
  simp [enabled, cmdEnabled, Option.isSome_iff_exists, and_assoc]

theorem enabled_boot_iff {r : RestoreResult} {s : State} : enabled (.boot r) s = true ↔ s.booted = false := by
  simp [enabled, bootEnabled]

/-- Settles O23: each of the three states contradicts the enabling condition of `CMD`. -/
theorem commandWaits : Obligations.CommandWaits := by
  intro s hwait
  have hdisabled : enabled .cmd s = false := by
    rw [← Bool.not_eq_true, enabled_cmd_iff]
    rintro ⟨hbooted, ⟨p, hslot⟩, hidle⟩
    rcases hwait with h | h | h
    · simp [hbooted] at h
    · simp [hslot] at h
    · simp [hidle] at h
  exact ⟨hdisabled, fire_of_not_enabled hdisabled⟩

/-- Settles O48: the enabling condition of `PULSE`, and an offer that is not enabled. -/
theorem pulseWaits : Obligations.PulseWaits :=
  fun _ _ => ⟨enabled_pulse_iff, fire_of_not_enabled⟩

/-- Settles O40: the enabling conditions of `TX_BEGIN` and `TX_END`, and the elements each of them writes. -/
theorem transmitRaisesAndLowersTheLine : Obligations.TransmitRaisesAndLowersTheLine :=
  ⟨fun _ => enabled_txBegin_iff, fun _ h => (fire_of_enabled h).trans rfl,
    fun _ => enabled_txEnd_iff, fun _ h => (fire_of_enabled h).trans rfl⟩

/-- Settles O60, output by output from its definition. -/
theorem outputsFollowTheState : Obligations.OutputsFollowTheState := by
  intro s
  have hzind : zind s = true ↔ s.bal = 0 := beq_iff_eq
  exact ⟨rfl, hzind, fun h => if_pos h, fun h => by simp [dirPin, h], rfl, rfl⟩

end Sys2Proof.Machine
end

section
/-! PROOFS. What a command leaves of the wallet (43_command_processor.md R181 to R194). -/

namespace Sys2Proof.Machine

/-- Settles O21: each outcome of a command that `exec_cases` lists moves the wallet as its row says. -/
theorem commandsMoveTheWalletExactly : Obligations.CommandsMoveTheWalletExactly := by
  intro i s hbal
  obtain ⟨r, raised, hexec, -, hrow⟩ := exec_cases i s
  refine ⟨afterCommand s r raised, hexec, ?_⟩
  rw [afterCommand_bal, afterCommand_cnt]
  rcases hrow with ⟨hb, hc⟩ | ⟨a, n, hi, ha, hb, hle, hc⟩ | ⟨a, n, hi, ha, hn, hb, hc⟩ | ⟨hi, hb, hc⟩ | ⟨hi, hb, hc⟩
  · exact ⟨by omega, by omega, by omega, by omega⟩
  · exact ⟨hle, fun _ => ⟨a, n, hi, ha, hb⟩, by omega, by omega⟩
  · exact ⟨by omega, by omega, fun _ => .inl ⟨a, n, hi, ha, by omega⟩, by omega⟩
  · exact ⟨by omega, by omega, fun _ => .inr ⟨hi, hb⟩, by omega⟩
  · exact ⟨by omega, by omega, by omega, fun _ => ⟨hi, hc⟩⟩

/-- A command keeps the balance within `BAL_MAX` (R194). -/
theorem exec_bal_le {i : Instr} {s t : State} (h : exec i s = .next t) (hbal : s.bal ≤ s.cfg.balMax) :
    t.bal ≤ s.cfg.balMax := by
  obtain ⟨u, hu, hle, -⟩ := commandsMoveTheWalletExactly i s hbal
  cases h.symm.trans hu
  exact hle

/-- No command counts a pulse (R184, R190). -/
theorem exec_cnt_le {i : Instr} {s t : State} (h : exec i s = .next t) : t.cnt ≤ s.cnt := by
  obtain ⟨r, raised, hexec, -, hrow⟩ := exec_cases i s
  cases h.symm.trans hexec
  rw [afterCommand_cnt]
  rcases hrow with ⟨-, hc⟩ | ⟨-, -, -, -, -, -, hc⟩ | ⟨-, -, -, -, -, -, hc⟩ | ⟨-, -, hc⟩ | ⟨-, -, hc⟩ <;> omega

end Sys2Proof.Machine
end

section
/-! PROOFS. What an offered step can leave, said once for all agents (00_scope.md R11): the relation `Effect` has one
case for each way a step can go, and every step that is offered is one of them. -/

namespace Sys2Proof.Machine

/-- `Effect e s t`: the offered step `e` leaves `t` of the state `s`. -/
inductive Effect : Event → State → State → Prop
  /-- The step is not enabled (R10, R110). -/
  | notEnabled {e : Event} {s : State} (disabled : enabled e s = false) : Effect e s s
  /-- `RX_IN` with room in `RXBUF` (R108). -/
  | rxKept {s : State} (b : Byte) (room : s.rxbuf.length < s.cfg.rxCap) :
      Effect (.rxIn b) s { s with rxbuf := s.rxbuf ++ [b] }
  /-- `RX_IN` with `RXBUF` full (R108, R239). -/
  | rxLost {s : State} (b : Byte) (full : s.cfg.rxCap ≤ s.rxbuf.length) :
      Effect (.rxIn b) s { s with status := s.status ||| 1, outputs := s.outputs ++ [.raised (.rxOverrun b)] }
  /-- `DEC` (R109, R231). -/
  | dec {s : State} (slot : s.slot = none) :
      Effect .dec s
        { s with
          rxbuf := (decodeFrame s.rxbuf).buffer
          slot := (decodeFrame s.rxbuf).payload
          outputs := s.outputs ++ (decodeFrame s.rxbuf).corrupt.map fun n => .raised (.frameCorrupt n) }
  /-- `TX_BEGIN` (R111). -/
  | txBegin {s : State} (sending : s.txph = .send) (low : s.dir = false) (line : s.cfg.hasDir = true)
      (queued : s.txq ≠ []) : Effect .txBegin s { s with dir := true }
  /-- `TX_BYTE` (R112, R114). -/
  | txByte {s : State} {b : Byte} {q : Bytes} (sending : s.txph = .send) (queued : s.txq = b :: q)
      (line : s.dir = true ∨ s.cfg.hasDir = false) :
      Effect .txByte s { s with txq := q, outputs := s.outputs ++ [.emit b] }
  /-- `TX_END` (R113). -/
  | txEnd {s : State} (sending : s.txph = .send) (drained : s.txq = []) :
      Effect .txEnd s { s with dir := false, txph := .idle }
  /-- `EDGE` (R140). -/
  | edge {s : State} : Effect .edge s { s with latch := true }
  /-- `PULSE` accepts the edge (R144, R146). -/
  | pulseAccepted {s : State} (now : Nat) (booted : s.booted = true) (clock : ∀ c, s.clk = some c → c ≤ now)
      (accepts : debounceAccepts s.cfg s.last now = true) :
      Effect (.pulse now) s
        { s with
          latch := false, clk := some now, last := some now
          bal := satInc s.bal s.cfg.balMax, cnt := satInc s.cnt s.cfg.cntMax }
  /-- `PULSE` rejects the edge under policy `ZERO` (R145). -/
  | pulseZeroed {s : State} (now : Nat) (booted : s.booted = true) (clock : ∀ c, s.clk = some c → c ≤ now)
      (rejects : debounceAccepts s.cfg s.last now = false) (policy : s.cfg.rejectPolicy = .zero) :
      Effect (.pulse now) s { s with latch := false, clk := some now, bal := 0, cnt := 0 }
  /-- `PULSE` rejects the edge under policy `IGNORE` (R145). -/
  | pulseIgnored {s : State} (now : Nat) (booted : s.booted = true) (clock : ∀ c, s.clk = some c → c ≤ now)
      (rejects : debounceAccepts s.cfg s.last now = false) (policy : s.cfg.rejectPolicy = .ignore) :
      Effect (.pulse now) s { s with latch := false, clk := some now }
  /-- `CMD` executes the payload (R180). -/
  | cmd {s : State} (p : Bytes) (r : Response) (raised : List ErrorCondition) (booted : s.booted = true)
      (slot : s.slot = some p) (listening : s.txph = .idle)
      (executed : exec (parse p) { s with slot := none } = .next (afterCommand { s with slot := none } r raised)) :
      Effect .cmd s (afterCommand { s with slot := none } r raised)
  /-- `RESET` (R42, R260). -/
  | reset {s : State} :
      Effect .reset s { State.resetWith s.cfg with agenda := s.agenda, tick := s.tick, outputs := s.outputs }
  /-- `BOOT` with a pair that fits (R163, R164). -/
  | bootLoaded {s : State} (b c : Nat) (unbooted : s.booted = false) (bal_fits : b ≤ s.cfg.balMax)
      (cnt_fits : c ≤ s.cfg.cntMax) :
      Effect (.boot (.valid b c)) s
        { s with bal := if s.cfg.zeroBalanceAfterLoad then 0 else b, cnt := c, booted := true }
  /-- `BOOT` without a snapshot (R161). -/
  | bootAbsent {s : State} (unbooted : s.booted = false) :
      Effect (.boot .absent) s
        { s with bal := 0, cnt := 0, booted := true, outputs := s.outputs ++ [.saveReq 0 0] }
  /-- `BOOT` with a snapshot that is corrupt or does not fit (R162, R163). -/
  | bootFailed {s : State} (r : RestoreResult) (unbooted : s.booted = false) (present : r ≠ .absent) :
      Effect (.boot r) s
        { s with
          bal := 0, cnt := 0, booted := true, status := s.status ||| 4
          outputs := s.outputs ++ [.raised .persistenceFailure, .saveReq 0 0] }

theorem rxIn_effect (b : Byte) (s : State) : Effect (.rxIn b) s (rxIn b s) := by
  unfold rxIn
  split
  next room => exact .rxKept b room
  next full => exact .rxLost b (Nat.le_of_not_lt full)

theorem decStep_effect {s : State} (h : enabled .dec s = true) : Effect .dec s (decStep s) := by
  obtain ⟨hslot, -⟩ := enabled_dec_iff.1 h
  rw [decStep_eq, hslot, Option.orElse_eq_orElse, Option.orElse_eq_or, Option.or_none]
  exact .dec hslot

theorem txByte_of_cons {s : State} {b : Byte} {q : Bytes} (h : s.txq = b :: q) :
    txByte s = { s with txq := q, outputs := s.outputs ++ [.emit b] } := by
  simp only [txByte, h, State.setTx, State.output]

theorem txByte_effect {s : State} (h : enabled .txByte s = true) : Effect .txByte s (txByte s) := by
  obtain ⟨hsend, hne, hline⟩ := enabled_txByte_iff.1 h
  obtain ⟨b, q, hq⟩ := List.exists_cons_of_ne_nil hne
  rw [txByte_of_cons hq]
  exact .txByte hsend hq hline

theorem pulse_effect {now : Nat} {s : State} (h : enabled (.pulse now) s = true) :
    Effect (.pulse now) s (pulse now s) := by
  obtain ⟨-, hbooted, hclock⟩ := enabled_pulse_iff.1 h
  rcases pulse_cases now s with ⟨haccept, heq⟩ | ⟨hreject, hpolicy, heq⟩ | ⟨hreject, hpolicy, heq⟩ <;> rw [heq]
  · exact .pulseAccepted now hbooted hclock haccept
  · exact .pulseZeroed now hbooted hclock hreject hpolicy
  · exact .pulseIgnored now hbooted hclock hreject hpolicy

theorem boot_effect {r : RestoreResult} {s : State} (h : enabled (.boot r) s = true) :
    Effect (.boot r) s (boot r s) := by
  have hunbooted := enabled_boot_iff.1 h
  rcases boot_cases r s with ⟨b, c, rfl, hb, hc, heq⟩ | ⟨rfl, heq⟩ | ⟨hr, heq⟩ <;> rw [heq]
  · exact .bootLoaded b c hunbooted hb hc
  · exact .bootAbsent hunbooted
  · exact .bootFailed r hunbooted hr

theorem cmdStep_of_some {s : State} {p : Bytes} (h : s.slot = some p) :
    cmdStep s = exec (parse p) { s with slot := none } := by
  simp only [cmdStep, h, State.setSlot]

theorem cmdStep_effect {s : State} (h : enabled .cmd s = true) : ∃ t, cmdStep s = .next t ∧ Effect .cmd s t := by
  obtain ⟨hbooted, ⟨p, hslot⟩, hidle⟩ := enabled_cmd_iff.1 h
  obtain ⟨r, raised, hexec, -⟩ := exec_cases (parse p) { s with slot := none }
  exact ⟨_, (cmdStep_of_some hslot).trans hexec, .cmd p r raised hbooted hslot hidle hexec⟩

/-- An enabled step answers a state, and it is one of the cases of `Effect`. -/
theorem perform_effect {e : Event} {s : State} (h : enabled e s = true) :
    ∃ t, perform e s = .next t ∧ Effect e s t := by
  cases e with
  | rxIn b => exact ⟨_, rfl, rxIn_effect b s⟩
  | dec => exact ⟨_, rfl, decStep_effect h⟩
  | txBegin =>
    obtain ⟨hsend, hlow, hline, hne⟩ := enabled_txBegin_iff.1 h
    exact ⟨_, rfl, .txBegin hsend hlow hline hne⟩
  | txByte => exact ⟨_, rfl, txByte_effect h⟩
  | txEnd =>
    obtain ⟨hsend, hdrained⟩ := enabled_txEnd_iff.1 h
    exact ⟨_, rfl, .txEnd hsend hdrained⟩
  | edge => exact ⟨_, rfl, .edge⟩
  | pulse now => exact ⟨_, rfl, pulse_effect h⟩
  | cmd => exact cmdStep_effect h
  | reset => exact ⟨_, rfl, resetBlock_eq s ▸ .reset⟩
  | boot r => exact ⟨_, rfl, boot_effect h⟩

/-- Every offered step answers a state (60_exceptions.md R240), and it is one of the cases of `Effect`. -/
theorem exists_fire_effect (e : Event) (s : State) : ∃ t, fire e s = .next t ∧ Effect e s t := by
  by_cases h : enabled e s = true
  · rw [fire_of_enabled h]
    exact perform_effect h
  · have hdisabled : enabled e s = false := Bool.not_eq_true _ ▸ h
    exact ⟨s, fire_of_not_enabled hdisabled, .notEnabled hdisabled⟩

theorem effect_of_fire {e : Event} {s t : State} (h : fire e s = .next t) : Effect e s t := by
  obtain ⟨u, hu, heffect⟩ := exists_fire_effect e s
  cases h.symm.trans hu
  exact heffect

end Sys2Proof.Machine
end

section
/-! PROOFS. Which steps write each element (10_state.md R20, "written by"), and what follows from that: the sticky flags
(R32), the clock record (R40, R150) and a block without a direction line (40_frame_codec.md R114). -/

namespace Sys2Proof.Machine

/-- What `e` leaves as it was between `s` and `t`: for each element, unless `e` is one of the steps that R20 names as
its writers. -/
structure Frame (e : Event) (s t : State) : Prop where
  cfg : t.cfg = s.cfg
  wallet : stepName e ∉ [.pulse, .cmd, .boot, .reset] → t.bal = s.bal ∧ t.cnt = s.cnt
  clock : stepName e ∉ [.pulse, .reset] → t.last = s.last ∧ t.clk = s.clk
  latch : stepName e ∉ [.edge, .pulse, .reset] → t.latch = s.latch
  rxbuf : stepName e ∉ [.rxIn, .dec, .reset] → t.rxbuf = s.rxbuf
  slot : stepName e ∉ [.dec, .cmd, .reset] → t.slot = s.slot
  txq : stepName e ∉ [.cmd, .txByte, .reset] → t.txq = s.txq
  txph : stepName e ∉ [.cmd, .txEnd, .reset] → t.txph = s.txph
  dir : stepName e ∉ [.txBegin, .txEnd, .reset] → t.dir = s.dir
  status : stepName e ∉ [.rxIn, .cmd, .boot, .reset] → t.status = s.status
  booted : stepName e ∉ [.boot, .reset] → t.booted = s.booted
  saves : stepName e ∉ [.cmd, .boot] → saveRequests t.outputs = saveRequests s.outputs
  emitted : stepName e ≠ .txByte → emittedBytes t.outputs = emittedBytes s.outputs

theorem Frame.refl (e : Event) (s : State) : Frame e s s := by
  constructor <;> simp

theorem saveRequests_frameCorrupt (lengths : List Nat) :
    saveRequests (lengths.map fun n => .raised (.frameCorrupt n)) = [] := by
  rw [← saveRequests_raised (lengths.map .frameCorrupt), List.map_map]
  rfl

theorem emittedBytes_frameCorrupt (lengths : List Nat) :
    emittedBytes (lengths.map fun n => .raised (.frameCorrupt n)) = [] := by
  rw [← emittedBytes_raised (lengths.map .frameCorrupt), List.map_map]
  rfl

/-- Every step keeps to the table: each case names the elements it writes, and its event is among their writers. -/
theorem Effect.frame {e : Event} {s t : State} (h : Effect e s t) : Frame e s t := by
  cases h with
  | notEnabled => exact Frame.refl e s
  | rxKept b => exact { Frame.refl (.rxIn b) s with rxbuf := by simp [stepName] }
  | rxLost b =>
    exact { Frame.refl (.rxIn b) s with
      status := by simp [stepName]
      saves := by simp [saveRequests]
      emitted := by simp [emittedBytes] }
  | dec =>
    exact { Frame.refl .dec s with
      rxbuf := by simp [stepName]
      slot := by simp [stepName]
      saves := by simp [saveRequests_frameCorrupt]
      emitted := by simp [emittedBytes_frameCorrupt] }
  | txBegin => exact { Frame.refl .txBegin s with dir := by simp [stepName] }
  | txByte =>
    exact { Frame.refl .txByte s with
      txq := by simp [stepName]
      saves := by simp [saveRequests]
      emitted := by simp [stepName] }
  | txEnd => exact { Frame.refl .txEnd s with dir := by simp [stepName], txph := by simp [stepName] }
  | edge => exact { Frame.refl .edge s with latch := by simp [stepName] }
  | pulseAccepted now =>
    exact { Frame.refl (.pulse now) s with
      wallet := by simp [stepName], clock := by simp [stepName], latch := by simp [stepName] }
  | pulseZeroed now =>
    exact { Frame.refl (.pulse now) s with
      wallet := by simp [stepName], clock := by simp [stepName], latch := by simp [stepName] }
  | pulseIgnored now =>
    exact { Frame.refl (.pulse now) s with clock := by simp [stepName], latch := by simp [stepName] }
  | cmd => constructor <;> simp [stepName]
  | reset => constructor <;> simp [stepName]
  | bootLoaded b c =>
    exact { Frame.refl (.boot (.valid b c)) s with wallet := by simp [stepName], booted := by simp [stepName] }
  | bootAbsent =>
    exact { Frame.refl (.boot .absent) s with
      wallet := by simp [stepName]
      booted := by simp [stepName]
      saves := by simp [stepName]
      emitted := by simp [emittedBytes] }
  | bootFailed r =>
    exact { Frame.refl (.boot r) s with
      wallet := by simp [stepName]
      status := by simp [stepName]
      booted := by simp [stepName]
      saves := by simp [stepName]
      emitted := by simp [emittedBytes] }

/-- Settles O58: the fields of `Frame`, which every step keeps. -/
theorem onlyTheNamedStepsWrite : Obligations.OnlyTheNamedStepsWrite := by
  intro e s
  obtain ⟨t, hfire, heffect⟩ := exists_fire_effect e s
  have frame := heffect.frame
  exact ⟨t, hfire, frame.cfg, frame.wallet, frame.clock, frame.latch, frame.rxbuf, frame.slot, frame.txq, frame.txph,
    frame.dir, frame.status, frame.booted, frame.saves, frame.emitted⟩

/-! ## The flags (R32) -/

/-- Every step but reset only sets bits of `STATUS`: none, or the bit of the flag it raises. -/
theorem Effect.status_eq_or {e : Event} {s t : State} (h : Effect e s t) (hreset : e ≠ .reset) :
    ∃ v, t.status = s.status ||| v := by
  cases h with
  | rxLost => exact ⟨1, rfl⟩
  | cmd p r raised =>
    obtain ⟨-, -, -, -, hstatus⟩ | ⟨-, -, -, hstatus⟩ := afterCommand_tx { s with slot := none } r raised
    · exact ⟨0, by simp [hstatus]⟩
    · exact ⟨2, hstatus⟩
  | bootFailed => exact ⟨4, rfl⟩
  | reset => exact absurd rfl hreset
  | _ => exact ⟨0, (BitVec.or_zero).symm⟩

/-- Settles O57: a step but reset only sets bits, and no enabling condition reads `STATUS`. -/
theorem statusIsStickyAndInert : Obligations.StatusIsStickyAndInert := by
  refine ⟨fun e s f hreset hset => ?_, fun e s v => by cases e <;> rfl⟩
  obtain ⟨t, hfire, heffect⟩ := exists_fire_effect e s
  obtain ⟨v, hstatus⟩ := heffect.status_eq_or hreset
  refine ⟨t, hfire, ?_⟩
  rw [hasFlag, hstatus]
  exact getLsbD_or_of_left hset

/-! ## The clock record (R40, R150) -/

/-- `LAST` lies at or before the clock record. -/
def LastWithinClock (s : State) : Prop := ∀ x, s.last = some x → ∃ c, s.clk = some c ∧ x ≤ c

theorem LastWithinClock.advance {s t : State} {now : Nat} (h : LastWithinClock s)
    (clock : ∀ c, s.clk = some c → c ≤ now) (hlast : t.last = s.last) (hclk : t.clk = some now) : LastWithinClock t := by
  intro x hx
  obtain ⟨c, hc, hle⟩ := h x (hlast ▸ hx)
  exact ⟨now, hclk, hle.trans (clock c hc)⟩

/-- A step moves the clock record to no earlier reading. -/
theorem Effect.clk_mono {e : Event} {s t : State} (h : Effect e s t) (hreset : e ≠ .reset) :
    ∀ c, s.clk = some c → ∃ c', t.clk = some c' ∧ c ≤ c' := by
  intro c hc
  cases h with
  | pulseAccepted now _ clock => exact ⟨now, rfl, clock c hc⟩
  | pulseZeroed now _ clock => exact ⟨now, rfl, clock c hc⟩
  | pulseIgnored now _ clock => exact ⟨now, rfl, clock c hc⟩
  | reset => exact absurd rfl hreset
  | cmd => exact ⟨c, by simpa using hc, le_rfl⟩
  | _ => exact ⟨c, hc, le_rfl⟩

/-- Only an accepted edge writes `LAST`, and it writes the clock record with it. -/
theorem Effect.lastWithinClock {e : Event} {s t : State} (h : Effect e s t) (hlast : LastWithinClock s) :
    LastWithinClock t := by
  cases h with
  | pulseAccepted now => exact fun x hx => ⟨now, rfl, (Option.some.inj hx).ge⟩
  | pulseZeroed now _ clock => exact hlast.advance clock rfl rfl
  | pulseIgnored now _ clock => exact hlast.advance clock rfl rfl
  | reset => exact nofun
  | cmd => simpa [LastWithinClock] using hlast
  | _ => exact hlast

/-- Settles O49: the two facts about the clock record, for the state that the step answers. -/
theorem clockNeverRunsBackwards : Obligations.ClockNeverRunsBackwards := by
  intro e s hreset
  obtain ⟨t, hfire, heffect⟩ := exists_fire_effect e s
  exact ⟨t, hfire, heffect.clk_mono hreset, heffect.lastWithinClock⟩

/-! ## No direction line (R114) -/

/-- Without the line no step raises `DIR`. -/
theorem Effect.dir_false {e : Event} {s t : State} (h : Effect e s t) (hline : s.cfg.hasDir = false)
    (hdir : s.dir = false) : t.dir = false := by
  cases h with
  | txBegin _ _ line => simp [hline] at line
  | txEnd => rfl
  | reset => rfl
  | cmd => simpa using hdir
  | _ => exact hdir

/-- Settles O41: `TX_BEGIN` needs the line, no other step raises `DIR`, and `TX_BYTE` does not wait for it. -/
theorem noDirectionLineNeedsNoTurnaround : Obligations.NoDirectionLineNeedsNoTurnaround := by
  intro s hline hdir
  have hbegin : enabled .txBegin s = false := by
    rw [← Bool.not_eq_true, enabled_txBegin_iff]
    simp [hline]
  refine ⟨hbegin, fun e => ?_, fun hsend hne => enabled_txByte_iff.2 ⟨hsend, hne, .inr hline⟩⟩
  obtain ⟨t, hfire, heffect⟩ := exists_fire_effect e s
  exact ⟨t, hfire, heffect.dir_false hline hdir⟩

end Sys2Proof.Machine
end

section
/-! PROOFS. The shape `State.Wf` as an invariant of the machine's step (10_state.md R20 to R34, 41_pulse_counter.md
R143 and R150): each way a step can go keeps it, by the clauses about the elements that the step writes. -/

namespace Sys2Proof.Machine

/-- What `DEC` yields fits in `SLOT`: its length is the value of a length byte (R28, R105). -/
theorem decodeFrame_payload_length (buf : Bytes) : ∀ p, (decodeFrame buf).payload = some p → p.length ≤ 255 := by
  induction buf using decodeFrame_induction with
  | empty => simp
  | discard b rest hb ih => rwa [decodeFrame_of_ne _ hb]
  | wait rest hw => rw [decodeFrame_wait hw]; exact nofun
  | complete length cs payload after hl ih =>
    rw [decodeFrame_complete hl]
    split
    · intro p hp
      cases hp
      have := length.isLt
      omega
    · exact ih

/-- The offer that is used up is no part of the shape. -/
theorem State.Wf.takeEvent {s : State} (h : s.Wf) : (takeEvent s).Wf := by
  cases hagenda : s.agenda with
  | nil => rw [takeEvent_of_nil hagenda]; exact { h with }
  | cons e later => rw [takeEvent_of_cons hagenda]; exact { h with }

/-- Where a byte can be sent, the line is up exactly if there is one (R112, R114). -/
theorem State.Wf.dir_eq_hasDir {s : State} (h : s.Wf) (line : s.dir = true ∨ s.cfg.hasDir = false) :
    s.dir = s.cfg.hasDir := by
  obtain hup | hline := line
  · rw [hup, h.dir_line hup]
  · rw [hline]
    exact Bool.eq_false_iff.2 fun hup => by simpa [hline] using h.dir_line hup

/-- A response is queued whole, or not at all (R180): the shape after a command, from the bounds of the wallet it
leaves. -/
theorem State.Wf.afterCommand {s : State} (h : s.Wf) (booted : s.booted = true) {r : Response}
    (raised : List ErrorCondition) (bal_le : r.balance ≤ s.cfg.balMax) (cnt_le : r.pulseCount ≤ s.cfg.cntMax) :
    (afterCommand s r raised).Wf := by
  unfold Machine.afterCommand
  cases hframe : encodeFrame (serialize r) with
  | some f =>
    have hlength := encodeFrame_length hframe
    have hpayload := (encodeFrame_eq_some.1 hframe).1
    exact { h with
      bal_le := bal_le
      cnt_le := cnt_le
      txq_le := by simp only; omega
      idle_txq := nofun
      idle_dir := nofun
      drained_dir := fun _ hdrained => by simp only at hdrained; simp [hdrained] at hlength
      unbooted := fun hunbooted => by simp [booted] at hunbooted }
  | none =>
    exact { h with
      bal_le := bal_le
      cnt_le := cnt_le
      unbooted := fun hunbooted => by simp [booted] at hunbooted }

/-- The shape after the three ways `PULSE` can go: the wallet within its widths, and `LAST` within the clock. -/
theorem State.Wf.served {s : State} (h : s.Wf) {b c : Nat} {last clk : Option Nat} (booted : s.booted = true)
    (bal_le : b ≤ s.cfg.balMax) (cnt_le : c ≤ s.cfg.cntMax)
    (last_le_clk : ∀ t, last = some t → ∃ c, clk = some c ∧ t ≤ c) :
    { s with latch := false, clk := clk, last := last, bal := b, cnt := c : State }.Wf :=
  { h with
    bal_le := bal_le
    cnt_le := cnt_le
    last_le_clk := last_le_clk
    unbooted := fun hunbooted => by simp [booted] at hunbooted }

/-- Every offered step keeps the shape. -/
theorem Effect.wf {e : Event} {s t : State} (heffect : Effect e s t) (h : s.Wf) : t.Wf := by
  have hlast := heffect.lastWithinClock h.last_le_clk
  cases heffect with
  | notEnabled => exact h
  | rxKept b room => exact { h with rxbuf_le := by simpa using room }
  | rxLost b full =>
    exact { h with unbooted := by simpa [hasFlag, flagBit] using h.unbooted }
  | dec =>
    exact { h with
      rxbuf_le := (decodeFrame_buffer_length s.rxbuf).1.trans h.rxbuf_le
      slot_le := decodeFrame_payload_length s.rxbuf }
  | txBegin sending low line queued =>
    exact { h with
      idle_dir := fun hidle => by simp [sending] at hidle
      drained_dir := fun _ hdrained => absurd hdrained queued
      dir_line := fun _ => line }
  | txByte sending queued line =>
    have hlength := h.txq_le
    exact { h with
      txq_le := by simp [queued] at hlength ⊢; omega
      idle_txq := fun hidle => by simp [sending] at hidle
      drained_dir := fun _ _ => h.dir_eq_hasDir line }
  | txEnd sending drained =>
    exact { h with
      idle_txq := fun _ => drained
      idle_dir := fun _ => rfl
      drained_dir := nofun
      dir_line := nofun
      unbooted := fun hunbooted => by
        obtain ⟨-, -, -, -, hidle, -⟩ := h.unbooted hunbooted
        simp [sending] at hidle }
  | edge => exact { h with }
  | pulseAccepted now booted => exact h.served booted (satInc_le _ _) (satInc_le _ _) hlast
  | pulseZeroed now booted => exact h.served booted (Nat.zero_le _) (Nat.zero_le _) hlast
  | pulseIgnored now booted => exact h.served booted h.bal_le h.cnt_le hlast
  | cmd p r raised booted slot listening executed =>
    have htaken : { s with slot := none : State }.Wf := { h with slot_le := nofun }
    have hbal := exec_bal_le executed htaken.bal_le
    have hcnt := (exec_cnt_le executed).trans htaken.cnt_le
    rw [afterCommand_bal] at hbal
    rw [afterCommand_cnt] at hcnt
    exact htaken.afterCommand booted raised hbal hcnt
  | reset => exact { State.resetWith_wf h.legal with }
  | bootLoaded b c unbooted bal_fits cnt_fits =>
    exact { h with
      bal_le := by simp only; split <;> omega
      cnt_le := cnt_fits
      unbooted := nofun }
  | bootAbsent =>
    exact { h with bal_le := Nat.zero_le _, cnt_le := Nat.zero_le _, unbooted := nofun }
  | bootFailed =>
    exact { h with bal_le := Nat.zero_le _, cnt_le := Nat.zero_le _, unbooted := nofun }

/-- Settles O55: the machine's step is the offered step of some agent, and each keeps the shape. -/
theorem everyStepKeepsTheStateWellFormed : Obligations.EveryStepKeepsTheStateWellFormed := by
  intro s t h hstep
  rw [step_of_legal h.legal] at hstep
  exact (effect_of_fire hstep).wf h.takeEvent

end Sys2Proof.Machine
end

section
/-! PROOFS. Weak fairness serves a waiting command (20_memory.md R56 and R60, 40_frame_codec.md R111 to R114,
43_command_processor.md R180): the one transmit step that a frame being sent allows stays enabled until it fires, so the
frame drains and the block listens again, and from then on `CMD` stays enabled until it fires. -/

namespace Sys2Proof.Machine

/-! ## Fair runs -/

/-- From position `n` on the run is fair to the block's own steps and has no reset. -/
structure FairFrom (run : Nat → Event) (s : State) (n : Nat) : Prop where
  fair : WeaklyFair run s
  noReset : ∀ m, n ≤ m → run m ≠ .reset

theorem FairFrom.mono {run : Nat → Event} {s : State} {n m : Nat} (h : FairFrom run s n) (hle : n ≤ m) :
    FairFrom run s m :=
  ⟨h.fair, fun _ hm => h.noReset _ (hle.trans hm)⟩

theorem effect_stateAt (run : Nat → Event) (s : State) (n : Nat) :
    Effect (run n) (stateAt run s n) (stateAt run s (n + 1)) := by
  obtain ⟨t, hfire, heffect⟩ := exists_fire_effect (run n) (stateAt run s n)
  rwa [stateAt, fireState_of_fire hfire]

theorem stateAt_succ_of_fire {run : Nat → Event} {s t : State} {n : Nat} {e : Event} (hrun : run n = e)
    (hfire : fire e (stateAt run s n) = .next t) : stateAt run s (n + 1) = t := by
  rw [stateAt, hrun, fireState_of_fire hfire]

/-- The block's own steps that carry no input: each is the only event of its name. -/
def inputlessSteps : List Event := [.dec, .txBegin, .txByte, .txEnd, .cmd]

theorem mem_inputlessSteps {x : Event} :
    x ∈ inputlessSteps ↔ x = .dec ∨ x = .txBegin ∨ x = .txByte ∨ x = .txEnd ∨ x = .cmd := by
  simp [inputlessSteps]

theorem eq_of_stepName_eq {e x : Event} (hx : x ∈ inputlessSteps) (h : stepName e = stepName x) : e = x := by
  rcases mem_inputlessSteps.1 hx with rfl | rfl | rfl | rfl | rfl <;> cases e <;> simp [stepName] at h ⊢

theorem isOwnStep_of_mem_inputlessSteps {x : Event} (hx : x ∈ inputlessSteps) : isOwnStep (stepName x) = true := by
  rcases mem_inputlessSteps.1 hx with rfl | rfl | rfl | rfl | rfl <;> rfl

/-- The rule of weak fairness: where `P` enables the step `x`, and every other step keeps `P`, the step fires from a
state with `P`. Were it never offered, `P` would hold for ever and enable it for ever. -/
theorem FairFrom.exists_fires {run : Nat → Event} {s : State} {n : Nat} (h : FairFrom run s n) {x : Event}
    (hx : x ∈ inputlessSteps) {P : State → Prop} (enables : ∀ u, P u → enabled x u = true)
    (keeps : ∀ e u t, Effect e u t → e ≠ .reset → e ≠ x → P u → P t) (start : P (stateAt run s n)) :
    ∃ m, n ≤ m ∧ run m = x ∧ P (stateAt run s m) := by
  by_contra hnever
  have always : ∀ m, n ≤ m → P (stateAt run s m) := by
    intro m hle
    induction m, hle using Nat.le_induction with
    | base => exact start
    | succ m hle ih =>
      exact keeps _ _ _ (effect_stateAt run s m) (h.noReset m hle) (fun hrun => hnever ⟨m, hle, hrun, ih⟩) ih
  obtain ⟨m, hle, hname, -⟩ :=
    h.fair _ (isOwnStep_of_mem_inputlessSteps hx) n fun m hle => ⟨x, rfl, enables _ (always m hle)⟩
  exact hnever ⟨m, hle, eq_of_stepName_eq hx hname, always m hle⟩

/-! ## A payload waits -/

/-- The block is booted and `SLOT` holds `p`. -/
structure Waiting (p : Bytes) (s : State) : Prop where
  booted : s.booted = true
  slot : s.slot = some p

/-- Only `CMD` takes the payload: `DEC` needs `SLOT` empty, and `BOOT` a block that is not booted. -/
theorem Effect.waiting {e : Event} {s t : State} (heffect : Effect e s t) {p : Bytes} (h : Waiting p s)
    (hreset : e ≠ .reset) (hcmd : e = .cmd → enabled e s = false) : Waiting p t := by
  cases heffect with
  | dec empty => simp [h.slot] at empty
  | cmd _ _ _ booted slot listening =>
    exact absurd (enabled_cmd_iff.2 ⟨booted, ⟨_, slot⟩, listening⟩) (Bool.eq_false_iff.1 (hcmd rfl))
  | reset => exact absurd rfl hreset
  | bootLoaded _ _ unbooted => simp [h.booted] at unbooted
  | bootAbsent unbooted => simp [h.booted] at unbooted
  | bootFailed _ unbooted => simp [h.booted] at unbooted
  | _ => exact { h with }

/-- A payload waits and no frame is being sent. -/
structure Servable (p : Bytes) (s : State) : Prop extends Waiting p s where
  idle : s.txph = .idle

theorem Servable.cmd_enabled {p : Bytes} {s : State} (h : Servable p s) : enabled .cmd s = true :=
  enabled_cmd_iff.2 ⟨h.booted, ⟨p, h.slot⟩, h.idle⟩

/-- Only `CMD` begins a frame. -/
theorem Effect.servable {e : Event} {s t : State} (heffect : Effect e s t) {p : Bytes} (h : Servable p s)
    (hreset : e ≠ .reset) (hcmd : e ≠ .cmd) : Servable p t where
  toWaiting := heffect.waiting h.toWaiting hreset fun he => absurd he hcmd
  idle := by
    cases heffect with
    | txEnd => rfl
    | cmd => exact absurd rfl hcmd
    | reset => exact absurd rfl hreset
    | _ => exact h.idle

theorem FairFrom.exists_cmd_of_servable {run : Nat → Event} {s : State} {n : Nat} (h : FairFrom run s n) {p : Bytes}
    (start : Servable p (stateAt run s n)) : ∃ m, n ≤ m ∧ run m = .cmd ∧ Servable p (stateAt run s m) :=
  h.exists_fires (by simp [inputlessSteps]) (fun _ hu => hu.cmd_enabled)
    (fun _ _ _ heffect hreset hcmd hu => heffect.servable hu hreset hcmd) start

/-! ## A payload waits while a frame is being sent -/

/-- A payload waits while, under configuration `c`, the bytes `q` are still to be sent and `DIR` is `d`. -/
structure Sending (p : Bytes) (c : Config) (q : Bytes) (d : Bool) (s : State) : Prop extends Waiting p s where
  send : s.txph = .send
  cfg : s.cfg = c
  txq : s.txq = q
  dir : s.dir = d

/-- The transmit step that a frame being sent allows (R111 to R114). -/
def nextTx (c : Config) (q : Bytes) (d : Bool) : Event :=
  if q = [] then .txEnd else if d = true ∨ c.hasDir = false then .txByte else .txBegin

theorem nextTx_mem_inputlessSteps (c : Config) (q : Bytes) (d : Bool) : nextTx c q d ∈ inputlessSteps := by
  unfold nextTx
  split_ifs <;> simp [inputlessSteps]

section Sending

variable {p : Bytes} {c : Config} {q : Bytes} {d : Bool} {s t : State}

theorem Sending.nextTx_enabled (h : Sending p c q d s) : enabled (nextTx c q d) s = true := by
  obtain ⟨-, hsend, rfl, rfl, rfl⟩ := h
  unfold nextTx
  split_ifs with hdrained hline
  · exact enabled_txEnd_iff.2 ⟨hsend, hdrained⟩
  · exact enabled_txByte_iff.2 ⟨hsend, hdrained, hline⟩
  · simp only [not_or, Bool.not_eq_true, Bool.not_eq_false] at hline
    exact enabled_txBegin_iff.2 ⟨hsend, hline.1, hline.2, hdrained⟩

/-- `CMD` waits while a frame is being sent, and no other step but the next transmit step touches the frame. -/
theorem Effect.sending {e : Event} (heffect : Effect e s t) (h : Sending p c q d s) (hreset : e ≠ .reset)
    (hnext : e ≠ nextTx c q d) : Sending p c q d t := by
  have hcmd : e = .cmd → enabled e s = false := by
    rintro rfl
    exact (commandWaits s (.inr (.inr h.send))).1
  have hwaiting := heffect.waiting h.toWaiting hreset hcmd
  obtain ⟨-, hsend, rfl, rfl, rfl⟩ := h
  cases heffect with
  | txBegin _ low line queued => exact absurd (by simp [nextTx, low, line, queued]) hnext
  | txByte _ queued line => exact absurd (by simp [nextTx, queued, line]) hnext
  | txEnd _ drained => exact absurd (by simp [nextTx, drained]) hnext
  | cmd _ _ _ _ _ listening => simp [hsend] at listening
  | reset => exact absurd rfl hreset
  | _ => exact ⟨hwaiting, hsend, rfl, rfl, rfl⟩

theorem Sending.fire_txBegin (h : Sending p c q d s) (hnext : nextTx c q d = .txBegin) :
    ∃ t, fire (nextTx c q d) s = .next t ∧ Sending p c q true t := by
  refine ⟨_, fire_of_enabled h.nextTx_enabled |>.trans (by rw [hnext]; rfl), ?_⟩
  exact { h with dir := rfl }

theorem Sending.fire_txByte {b : Byte} (h : Sending p c (b :: q) d s) (hnext : nextTx c (b :: q) d = .txByte) :
    ∃ t, fire (nextTx c (b :: q) d) s = .next t ∧ Sending p c q d t := by
  refine ⟨_, fire_of_enabled h.nextTx_enabled |>.trans (by rw [hnext, perform, txByte_of_cons h.txq]), ?_⟩
  exact { h with txq := rfl }

theorem Sending.fire_txEnd (h : Sending p c [] d s) : ∃ t, fire (nextTx c [] d) s = .next t ∧ Servable p t :=
  ⟨_, (fire_of_enabled h.nextTx_enabled).trans rfl, { h with idle := rfl }⟩

end Sending

section FairSending

variable {run : Nat → Event} {s : State} {n : Nat} {p : Bytes} {c : Config} {q : Bytes} {d : Bool}

/-- What the next transmit step makes true comes true in a fair run. -/
theorem FairFrom.exists_after_nextTx (h : FairFrom run s n) (start : Sending p c q d (stateAt run s n))
    {Q : State → Prop} (fires : ∀ u, Sending p c q d u → ∃ t, fire (nextTx c q d) u = .next t ∧ Q t) :
    ∃ m, n ≤ m ∧ Q (stateAt run s m) := by
  obtain ⟨m, hle, hrun, hsending⟩ := h.exists_fires (nextTx_mem_inputlessSteps c q d) (fun _ hu => hu.nextTx_enabled)
    (fun _ _ _ heffect hreset hnext hu => heffect.sending hu hreset hnext) start
  obtain ⟨t, hfire, hq⟩ := fires _ hsending
  exact ⟨m + 1, hle.trans m.le_succ, stateAt_succ_of_fire hrun hfire ▸ hq⟩

/-- The frame drains: by induction on the bytes still to be sent, the line rising first where it has to. -/
theorem FairFrom.exists_servable_of_sending (h : FairFrom run s n) (start : Sending p c q d (stateAt run s n)) :
    ∃ m, n ≤ m ∧ Servable p (stateAt run s m) := by
  induction q generalizing n d with
  | nil => exact h.exists_after_nextTx start fun _ hu => hu.fire_txEnd
  | cons b q ih =>
    have drains : ∀ {k d'}, n ≤ k → (d' = true ∨ c.hasDir = false) → Sending p c (b :: q) d' (stateAt run s k) →
        ∃ m, n ≤ m ∧ Servable p (stateAt run s m) := by
      intro k d' hk hline hsending
      obtain ⟨j, hj, hsent⟩ := (h.mono hk).exists_after_nextTx hsending
        fun _ hu => hu.fire_txByte (by simp [nextTx, hline])
      obtain ⟨m, hm, hservable⟩ := ih (h.mono (hk.trans hj)) hsent
      exact ⟨m, (hk.trans hj).trans hm, hservable⟩
    by_cases hline : d = true ∨ c.hasDir = false
    · exact drains le_rfl hline start
    · obtain ⟨k, hk, hraised⟩ := h.exists_after_nextTx start fun _ hu => hu.fire_txBegin (by simp [nextTx, hline])
      exact drains hk (.inl rfl) hraised

end FairSending

/-- Settles O43: a frame that is being sent drains first, and then `CMD` takes the payload. -/
theorem weakFairnessServesEveryCommand : Obligations.WeakFairnessServesEveryCommand := by
  intro run s n p hfair hreset hbooted hslot
  have hfrom : FairFrom run s n := ⟨hfair, hreset⟩
  have hwaiting : Waiting p (stateAt run s n) := ⟨hbooted, hslot⟩
  obtain ⟨m, hle, hservable⟩ : ∃ m, n ≤ m ∧ Servable p (stateAt run s m) := by
    cases hphase : (stateAt run s n).txph with
    | idle => exact ⟨n, le_rfl, { hwaiting with idle := hphase }⟩
    | send =>
      exact hfrom.exists_servable_of_sending { hwaiting with send := hphase, cfg := rfl, txq := rfl, dir := rfl }
  obtain ⟨m', hle', hrun, hserved⟩ := (hfrom.mono hle).exists_cmd_of_servable hservable
  exact ⟨m', hle.trans hle', hrun, hserved.cmd_enabled, hserved.slot⟩

end Sys2Proof.Machine
end

section
/-! PROOFS. The amount (30_encoding.md R79): which texts are amounts, and their value by the positions of the digits. -/

namespace Sys2Proof.Machine

theorem isDigit_iff {b : Byte} : isDigit b = true ↔ 0x30 ≤ b.toNat ∧ b.toNat ≤ 0x39 := by
  simp only [isDigit, Bool.and_eq_true, decide_eq_true_eq]

theorem amount_eq_some_iff {c : Config} {a : Bytes} {n : Nat} :
    amount c a = some n ↔
      1 ≤ a.length ∧ (∀ b ∈ a, isDigit b = true) ∧ n = digitsValue a ∧ n ≤ c.balMax := by
  constructor
  · intro h
    unfold amount at h
    split_ifs at h with hshape hle
    cases h
    exact ⟨hshape.1, List.all_eq_true.1 hshape.2, rfl, hle⟩
  · rintro ⟨hlength, hdigits, rfl, hle⟩
    exact amount_of_digits (List.ne_nil_of_length_pos hlength) hdigits hle

theorem amount_eq_none_of_mem {a : Bytes} {b : Byte} (hb : b ∈ a) (hdigit : isDigit b = false) (c : Config) :
    amount c a = none := by
  rw [Option.eq_none_iff_forall_ne_some]
  intro n hn
  obtain ⟨-, hdigits, -⟩ := amount_eq_some_iff.1 hn
  simp [hdigits b hb] at hdigit

/-- The value of a digit string by positions: induction on its last digit, which moves every other one up. -/
theorem digitsValue_eq_sum (a : Bytes) :
    digitsValue a = ∑ k ∈ Finset.range a.length, ((a.getD k 0).toNat - 0x30) * 10 ^ (a.length - 1 - k) := by
  induction a using List.reverseRecOn with
  | nil => rfl
  | append_singleton a b ih =>
    have hmoved : ∀ k ∈ Finset.range a.length,
        (((a ++ [b]).getD k 0).toNat - 0x30) * 10 ^ (a.length + 1 - 1 - k) =
          10 * (((a.getD k 0).toNat - 0x30) * 10 ^ (a.length - 1 - k)) := by
      intro k hk
      have hlt := Finset.mem_range.1 hk
      have hexp : a.length + 1 - 1 - k = a.length - 1 - k + 1 := by omega
      rw [List.getD_append _ _ _ _ hlt, hexp, pow_succ]
      ring
    have hlast : (a ++ [b]).getD a.length 0 = b := by simp
    rw [digitsValue_concat, ih, List.length_append, List.length_singleton, Finset.sum_range_succ,
      Finset.sum_congr rfl hmoved, ← Finset.mul_sum, hlast]
    simp

/-- Settles O5: `amount` by its value, the value by positions, and the two signs, which are no digits. -/
theorem amountIsExactBoundedDecimal : Obligations.AmountIsExactBoundedDecimal := by
  refine ⟨fun c a n => ?_, fun c => ⟨?_, ?_⟩⟩
  · simp only [amount_eq_some_iff, isDigit_iff, digitsValue_eq_sum]
  · exact amount_eq_none_of_mem (b := 0x2D) (by decide) (by decide) c
  · exact amount_eq_none_of_mem (b := 0x2B) (by decide) (by decide) c

end Sys2Proof.Machine
end

section
/-! PROOFS. The command decoder and encoder as relations (30_encoding.md R76 to R81, R87): `trim` leaves a trimmed text,
and a payload stands for the command whose bytes are its trimmed text. -/

namespace Sys2Proof

/-! ## `trim` (R77) -/

theorem isTrimmed_iff {t : Bytes} :
    isTrimmed t = true ↔
      (∀ b ∈ t.head?, isWhitespace b = false) ∧ ∀ b ∈ t.getLast?, isWhitespace b = false := by
  unfold isTrimmed
  cases t.head? <;> cases t.getLast? <;> simp

theorem trim_eq_rdropWhile (p : Bytes) : trim p = (p.dropWhile isWhitespace).rdropWhile isWhitespace := rfl

/-- What `rdropWhile` takes away satisfies the test. -/
theorem exists_rdropWhile {α : Type} (test : α → Bool) (l : List α) :
    ∃ after, l = l.rdropWhile test ++ after ∧ ∀ x ∈ after, test x = true := by
  refine ⟨(l.reverse.takeWhile test).reverse, ?_, fun x hx => List.mem_takeWhile_imp (List.mem_reverse.1 hx)⟩
  rw [List.rdropWhile, ← List.reverse_append, List.takeWhile_append_dropWhile, List.reverse_reverse]

theorem exists_trim_decomposition (p : Bytes) :
    ∃ before after, p = before ++ trim p ++ after ∧
      (∀ b ∈ before, isWhitespace b = true) ∧ ∀ b ∈ after, isWhitespace b = true := by
  obtain ⟨before, hbefore, hws⟩ := exists_dropWhile isWhitespace p
  obtain ⟨after, hafter, hws'⟩ := exists_rdropWhile isWhitespace (p.dropWhile isWhitespace)
  refine ⟨before, after, ?_, hws, hws'⟩
  rw [trim_eq_rdropWhile, List.append_assoc, ← hafter, ← hbefore]

theorem length_trim_le (p : Bytes) : (trim p).length ≤ p.length := by
  obtain ⟨before, after, hp, -⟩ := exists_trim_decomposition p
  have hlength := congrArg List.length hp
  simp only [List.length_append] at hlength
  omega

theorem head?_dropWhile_isWhitespace (p : Bytes) : ∀ b ∈ (p.dropWhile isWhitespace).head?, isWhitespace b = false := by
  intro b hb
  have h := List.head?_dropWhile_not isWhitespace p
  rw [Option.mem_def.1 hb] at h
  exact h

/-- The last byte of a trimmed payload was tested, and its first one is that of the text before the second pass. -/
theorem isTrimmed_trim (p : Bytes) : isTrimmed (trim p) = true := by
  rw [trim_eq_rdropWhile, isTrimmed_iff]
  constructor
  · intro b hb
    refine head?_dropWhile_isWhitespace p b ?_
    obtain ⟨after, hafter⟩ := List.rdropWhile_prefix isWhitespace (l := p.dropWhile isWhitespace)
    rw [← hafter, List.head?_append, Option.mem_def.1 hb]
    rfl
  · intro b hb
    obtain ⟨hne, rfl⟩ := List.mem_getLast?_eq_getLast hb
    exact Bool.eq_false_iff.2 (List.rdropWhile_last_not _ _ hne)

theorem isWhitespace_iff (b : Byte) :
    isWhitespace b = true ↔ b.toNat ∈ [0x09, 0x0A, 0x0B, 0x0C, 0x0D, 0x20] := by
  simp only [isWhitespace, Bool.or_eq_true, beq_iff_eq, ← BitVec.toNat_inj, List.mem_cons, List.not_mem_nil, or_false,
    or_assoc]
  rfl

/-! ## The rows of the table (R80, R87) -/

/-- The command is what the table's order makes of its bytes: the text of an unknown command matches no other row. -/
def Instr.isRow : Instr → Bool
  | .unknown t => !(isCommandText t)
  | _ => true

/-- The row of an amount command matches by the keyword in front, and the text is what stands behind it (R80). -/
theorem take_eq_iff_exists_append {keyword t : Bytes} (h : keyword.length = 12) :
    t.take 12 = keyword ↔ ∃ a, t = keyword ++ a := by
  constructor
  · intro htake
    exact ⟨t.drop 12, by rw [← htake, List.take_append_drop]⟩
  · rintro ⟨a, rfl⟩
    exact List.take_left' h

/-- The length test of R80 follows from the match of the first 12 bytes. -/
theorem le_length_and_take_eq_iff {keyword t : Bytes} (h : keyword.length = 12) :
    (12 ≤ t.length ∧ t.take 12 = keyword) ↔ t.take 12 = keyword := by
  refine and_iff_right_of_imp fun htake => ?_
  have hlength := List.length_take_le' 12 t
  rwa [htake, h] at hlength

theorem isCommandText_iff {t : Bytes} :
    isCommandText t = true ↔
      t ∈ exactKeywords ∨ (∃ a, t = kwAddBalance ++ a) ∨ ∃ a, t = kwSubBalance ++ a := by
  simp only [isCommandText, Bool.or_eq_true, beq_iff_eq, List.contains_iff_mem, or_assoc,
    take_eq_iff_exists_append length_kwAddBalance, take_eq_iff_exists_append length_kwSubBalance]

/-- The chain of tests in `parse`, with the amount rows tested by their first 12 bytes. -/
theorem parse_eq_ite (p : Bytes) :
    parse p =
      if trim p = kwGetBalance then .getBalance
      else if trim p = kwGetStatus then .getStatus
      else if trim p = kwGetCoinCount then .getCoinCount
      else if trim p = kwResetBalance then .resetBalance
      else if trim p = kwResetCount then .resetCount
      else if (trim p).take 12 = kwAddBalance then .addBalance ((trim p).drop 12)
      else if (trim p).take 12 = kwSubBalance then .subBalance ((trim p).drop 12)
      else .unknown (trim p) := by
  simp only [parse, le_length_and_take_eq_iff length_kwAddBalance, le_length_and_take_eq_iff length_kwSubBalance]

theorem encode_parse (p : Bytes) : encode (parse p) = trim p := by
  rw [parse_eq_ite]
  split_ifs with h1 h2 h3 h4 h5 hadd hsub
  · exact h1.symm
  · exact h2.symm
  · exact h3.symm
  · exact h4.symm
  · exact h5.symm
  · rw [encode, ← hadd, List.take_append_drop]
  · rw [encode, ← hsub, List.take_append_drop]
  · rfl

theorem isRow_parse (p : Bytes) : (parse p).isRow = true := by
  rw [parse_eq_ite]
  split_ifs with h1 h2 h3 h4 h5 hadd hsub
  case neg => simp [Instr.isRow, isCommandText, exactKeywords, h1, h2, h3, h4, h5, hadd, hsub]
  all_goals rfl

/-- A command that is a row of the table is read from every payload whose trimmed text is its bytes. -/
theorem parse_of_trim_eq {p : Bytes} {i : Instr} (hrow : i.isRow = true) (h : trim p = encode i) : parse p = i := by
  rw [parse_eq_ite, h]
  cases i with
  | getBalance => rfl
  | getStatus => rfl
  | getCoinCount => rfl
  | resetBalance => rfl
  | resetCount => rfl
  | addBalance a => rfl
  | subBalance a => rfl
  | unknown t =>
    simp only [Instr.isRow, isCommandText, exactKeywords, Bool.not_eq_true', Bool.or_eq_false_iff, List.contains_eq_mem,
      decide_eq_false_iff_not, beq_eq_false_iff_ne, List.mem_cons, List.not_mem_nil, or_false, not_or] at hrow
    obtain ⟨⟨⟨h1, h2, h3, h4, h5⟩, hadd⟩, hsub⟩ := hrow
    simp only [encode, h1, h2, h3, h4, h5, hadd, hsub, if_false]

/-- The decoder as a relation: a payload stands for exactly the row whose bytes are its trimmed text. -/
theorem parse_eq_iff {p : Bytes} {i : Instr} : parse p = i ↔ trim p = encode i ∧ i.isRow = true := by
  constructor
  · rintro rfl
    exact ⟨(encode_parse p).symm, isRow_parse p⟩
  · rintro ⟨h, hrow⟩
    exact parse_of_trim_eq hrow h

/-- The same for the rows that have no condition on their text. -/
theorem parse_eq_iff_trim_eq {p : Bytes} {i : Instr} (hrow : i.isRow = true) : parse p = i ↔ trim p = encode i := by
  rw [parse_eq_iff, and_iff_left hrow]

/-- Settles O3: each row by `parse_eq_iff`, the condition of the last one spelt out. -/
theorem parseSelectsTheTableRow : Obligations.ParseSelectsTheTableRow := by
  intro p
  refine ⟨parse_eq_iff_trim_eq rfl, parse_eq_iff_trim_eq rfl, parse_eq_iff_trim_eq rfl, parse_eq_iff_trim_eq rfl,
    parse_eq_iff_trim_eq rfl, fun _ => parse_eq_iff_trim_eq rfl, fun _ => parse_eq_iff_trim_eq rfl, fun t => ?_⟩
  have hrow : (Instr.unknown t).isRow = true ↔
      t ∉ exactKeywords ∧ (∀ a, t ≠ kwAddBalance ++ a) ∧ ∀ a, t ≠ kwSubBalance ++ a := by
    simp only [Instr.isRow, Bool.not_eq_true', ← Bool.not_eq_true, isCommandText_iff, not_or, not_exists, ne_eq]
  rw [parse_eq_iff, hrow, encode, eq_comm]
  exact Iff.rfl

/-! ## Well-formed commands -/

/-- A keyword without whitespace at its ends, with a text behind it, is trimmed just when the text's end is. -/
theorem isTrimmed_keyword_append_iff {keyword a : Bytes} (hk : isTrimmed keyword = true) (hne : keyword ≠ []) :
    isTrimmed (keyword ++ a) = true ↔ a.getLast?.any isWhitespace = false := by
  refine ⟨fun h => ?_, Laws.isTrimmed_keyword_append hk hne⟩
  cases hlast : a.getLast? with
  | none => rfl
  | some b => exact (isTrimmed_iff.1 h).2 b (by simp [hlast])

/-- A command is well formed just when it is a row of the table whose bytes a frame can carry and trimming leaves as
they are. -/
theorem wellFormed_iff {i : Instr} :
    i.wellFormed = true ↔ i.isRow = true ∧ (encode i).length ≤ maxPayload ∧ isTrimmed (encode i) = true := by
  cases i with
  | addBalance a =>
    simp [Instr.wellFormed, Instr.isRow, encode, length_kwAddBalance, Nat.add_comm,
      isTrimmed_keyword_append_iff (keyword := kwAddBalance) (by decide) (by decide)]
  | subBalance a =>
    simp [Instr.wellFormed, Instr.isRow, encode, length_kwSubBalance, Nat.add_comm,
      isTrimmed_keyword_append_iff (keyword := kwSubBalance) (by decide) (by decide)]
  | unknown t => simp [Instr.wellFormed, Instr.isRow, encode, and_comm]
  | _ => decide

theorem decodeBytes_of_le {p : Bytes} (h : p.length ≤ maxPayload) : decodeBytes p = .ok (parse p) := if_pos h

/-- Settles O1: the bytes of a well-formed command are trimmed and a frame can carry them. -/
theorem parseOfEncodeGivesTheCommand : Obligations.ParseOfEncodeGivesTheCommand := by
  intro i hwf
  obtain ⟨hrow, hlength, htrimmed⟩ := wellFormed_iff.1 hwf
  have hparse : parse (encode i) = i := parse_of_trim_eq hrow (trim_of_isTrimmed htrimmed)
  exact ⟨hparse, by rw [decodeBytes_of_le hlength, hparse]⟩

/-- Settles O2: `parse` keeps the trimmed text, which is trimmed and no longer than the payload. -/
theorem encodeOfParseGivesTheTrimmedPayload : Obligations.EncodeOfParseGivesTheTrimmedPayload := by
  refine fun p => ⟨encode_parse p, fun hlength => wellFormed_iff.2 ⟨isRow_parse p, ?_, ?_⟩⟩
  · exact encode_parse p ▸ (length_trim_le p).trans hlength
  · exact encode_parse p ▸ isTrimmed_trim p

/-- Settles O7: each payload's bytes, in the order of the model's convention, are read by evaluation. -/
theorem tableRowsDecode : Obligations.TableRowsDecode := by
  refine ⟨?_, ?_, ?_, ?_, ?_, ?_, ?_, ?_⟩ <;> decide

/-- Settles O4: the parts that `trim` takes away, the ends of what it leaves, and the two texts of R77. -/
theorem trimRemovesOuterWhitespaceOnly : Obligations.TrimRemovesOuterWhitespaceOnly := by
  refine ⟨isWhitespace_iff, fun p => ?_, by decide, by decide,
    Machine.amount_eq_none_of_mem (b := 0x20) (by decide) (by decide)⟩
  obtain ⟨before, after, hp, hbefore, hafter⟩ := exists_trim_decomposition p
  obtain ⟨hhead, hlast⟩ := isTrimmed_iff.1 (isTrimmed_trim p)
  exact ⟨before, after, hp, hbefore, hafter, hhead, hlast⟩

end Sys2Proof
end

section
/-! PROOFS. The checksum and the frame's layout (30_encoding.md R70, R72). -/

namespace Sys2Proof.Machine

theorem checksum_toNat (length : Nat) (p : Bytes) : (checksum length p).toNat = (length + sumBytes p) % 256 := by
  simp [checksum]

/-- Two checksums agree just when the sums do, modulo 256. -/
theorem checksum_eq_iff {length length' : Nat} {p q : Bytes} :
    checksum length p = checksum length' q ↔ length + sumBytes p ≡ length' + sumBytes q [MOD 256] := by
  rw [← BitVec.toNat_inj, checksum_toNat, checksum_toNat, Nat.ModEq]

theorem sumBytes_append (p q : Bytes) : sumBytes (p ++ q) = sumBytes p + sumBytes q := by
  simp [sumBytes]

theorem sumBytes_cons (b : Byte) (p : Bytes) : sumBytes (b :: p) = b.toNat + sumBytes p := by
  simp [sumBytes]

theorem sumBytes_perm {p q : Bytes} (h : p.Perm q) : sumBytes p = sumBytes q := (h.map _).sum_nat

/-- A changed byte changes the sum by the difference of the two bytes. -/
theorem sumBytes_set {p : Bytes} {k : Nat} (hk : k < p.length) (b : Byte) :
    sumBytes (p.set k b) + (p.getD k 0).toNat = sumBytes p + b.toNat := by
  have hsplit : p = p.take k ++ p[k] :: p.drop (k + 1) := by
    rw [List.getElem_cons_drop, List.take_append_drop]
  have hold : sumBytes p = sumBytes (p.take k) + (p[k].toNat + sumBytes (p.drop (k + 1))) := by
    conv_lhs => rw [hsplit]
    rw [sumBytes_append, sumBytes_cons]
  rw [List.set_eq_take_append_cons_drop, if_pos hk, sumBytes_append, sumBytes_cons, hold,
    List.getD_eq_getElem _ _ hk]
  omega

/-- Two numbers below 256 that agree modulo 256 are equal, so a byte or a length is read off its sum. -/
theorem eq_of_modEq_256 {m n : Nat} (h : m ≡ n [MOD 256]) (hm : m ≤ 255) (hn : n ≤ 255) : m = n :=
  Nat.ModEq.eq_of_lt_of_lt h (by omega) (by omega)

/-- Settles O27: each change moves the sum by a number that is not 0 modulo 256, and an order is no part of a sum. -/
theorem checksumFormulaSeparatesOneChange : Obligations.ChecksumFormulaSeparatesOneChange := by
  refine ⟨fun length length' p hle hle' hne heq => ?_, fun length k p b hk hne heq => ?_, fun length p q hperm => ?_⟩
  · exact hne (eq_of_modEq_256 (Nat.ModEq.add_right_cancel' _ (checksum_eq_iff.1 heq)) hle hle')
  · have hsum : sumBytes (p.set k b) ≡ sumBytes p [MOD 256] := Nat.ModEq.add_left_cancel' _ (checksum_eq_iff.1 heq)
    have hmoved := hsum.add_right (p.getD k 0).toNat
    rw [sumBytes_set hk] at hmoved
    have hbyte := eq_of_modEq_256 (Nat.ModEq.add_left_cancel' _ hmoved) (by omega) (by omega)
    exact hne (BitVec.eq_of_toNat_eq hbyte.symm)
  · rw [checksum_eq_iff, sumBytes_perm hperm]

theorem encodeFrame_of_gt {p : Bytes} (h : 255 < p.length) : encodeFrame p = none := if_pos h

/-- Settles O26: the frame that `encodeFrame` gives, byte by byte. -/
theorem frameLayoutIsExact : Obligations.FrameLayoutIsExact := by
  refine fun p => ⟨fun hlength => ?_, encodeFrame_of_gt⟩
  have hframe := encodeFrame_eq_some.2 ⟨hlength, rfl⟩
  refine ⟨_, hframe, encodeFrame_length hframe, rfl, ?_, ?_, ?_⟩
  · simp [Nat.mod_eq_of_lt (Nat.lt_succ_of_le hlength)]
  · simp
  · simp [checksum_toNat]

end Sys2Proof.Machine
end

section
/-! PROOFS. Every command's response, one equation for each way a command can go (43_command_processor.md R182 to
R192). -/

namespace Sys2Proof.Machine

theorem exec_getBalance (s : State) :
    exec .getBalance s = .next (afterCommand s ⟨.success, s.bal, s.cnt, dec s.bal, false, 0⟩ []) := by
  rw [← respond_self_eq_afterCommand]; rfl

theorem exec_getStatus (s : State) :
    exec .getStatus s = .next (afterCommand s ⟨.success, s.bal, s.cnt, s.cfg.statusText, false, 0⟩ []) := by
  rw [← respond_self_eq_afterCommand]; rfl

theorem exec_getCoinCount (s : State) :
    exec .getCoinCount s = .next (afterCommand s ⟨.success, s.bal, s.cnt, dec s.cnt, false, 0⟩ []) := by
  rw [← respond_self_eq_afterCommand]; rfl

theorem exec_addBalance_of_none {s : State} {a : Bytes} (ha : amount s.cfg a = none) :
    exec (.addBalance a) s =
      .next (afterCommand s ⟨.error, s.bal, s.cnt, msgInvalidAmount, false, 0⟩ [.invalidAmount a]) := by
  simp only [exec, execAddBalance, ha, answerInvalidAmount, respond_raise_eq_afterCommand]

theorem exec_addBalance_of_le {s : State} {a : Bytes} {n : Nat} (ha : amount s.cfg a = some n)
    (hfits : s.bal + n ≤ s.cfg.balMax) :
    exec (.addBalance a) s =
      .next (afterCommand s ⟨.success, s.bal + n, s.cnt, dec (s.bal + n), true, n⟩ []) := by
  simp only [exec, execAddBalance, ha, if_pos hfits, respond_setWallet_eq_afterCommand]

theorem exec_addBalance_of_gt {s : State} {a : Bytes} {n : Nat} (ha : amount s.cfg a = some n)
    (hover : s.cfg.balMax < s.bal + n) :
    exec (.addBalance a) s =
      .next (afterCommand s ⟨.error, s.bal, s.cnt, msgBalanceOverflow, false, n⟩ [.balanceOverflow n]) := by
  simp only [exec, execAddBalance, ha, if_neg hover.not_ge, respond_raise_eq_afterCommand]

theorem exec_subBalance_of_none {s : State} {a : Bytes} (ha : amount s.cfg a = none) :
    exec (.subBalance a) s =
      .next (afterCommand s ⟨.error, s.bal, s.cnt, msgInvalidAmount, false, 0⟩ [.invalidAmount a]) := by
  simp only [exec, execSubBalance, ha, answerInvalidAmount, respond_raise_eq_afterCommand]

theorem exec_subBalance_of_le {s : State} {a : Bytes} {n : Nat} (ha : amount s.cfg a = some n) (hfits : n ≤ s.bal) :
    exec (.subBalance a) s =
      .next (afterCommand s ⟨.success, s.bal - n, s.cnt, dec (s.bal - n), true, n⟩ []) := by
  simp only [exec, execSubBalance, ha, if_pos hfits, respond_setWallet_eq_afterCommand]

theorem exec_subBalance_of_gt {s : State} {a : Bytes} {n : Nat} (ha : amount s.cfg a = some n) (hshort : s.bal < n) :
    exec (.subBalance a) s =
      .next (afterCommand s ⟨.error, s.bal, s.cnt, msgInsufficientBalance, false, n⟩ [.insufficientBalance n]) := by
  simp only [exec, execSubBalance, ha, if_neg hshort.not_ge, respond_raise_eq_afterCommand]

theorem exec_resetBalance (s : State) :
    exec .resetBalance s = .next (afterCommand s ⟨.success, 0, s.cnt, dec 0, true, 0⟩ []) := by
  rw [← respond_setWallet_eq_afterCommand]; rfl

theorem exec_resetCount (s : State) :
    exec .resetCount s = .next (afterCommand s ⟨.success, s.bal, 0, s.cfg.resetCountAck, true, 0⟩ []) := by
  rw [← respond_setWallet_eq_afterCommand]; rfl

theorem exec_unknown (t : Bytes) (s : State) :
    exec (.unknown t) s =
      .next (afterCommand s ⟨.error, s.bal, s.cnt, msgUnknownCommand, false, 0⟩ [.unknownCommand t]) := by
  rw [← respond_raise_eq_afterCommand]; rfl

end Sys2Proof.Machine
end

section
/-! PROOFS. The length of a response (30_encoding.md R83 to R85): the texts around it are fixed, and a decimal text is no
longer than that of the maximum. -/

namespace Sys2Proof.Machine

theorem length_dec_pos (v : Nat) : 1 ≤ (dec v).length := List.length_pos_of_ne_nil (dec_ne_nil v)

theorem length_dec_of_lt {v : Nat} (h : v < 10) : (dec v).length = 1 := by
  rw [dec_of_lt h, List.length_singleton]

theorem length_dec_of_le {v : Nat} (h : 10 ≤ v) : (dec v).length = (dec (v / 10)).length + 1 := by
  rw [dec_of_le h, List.length_append, List.length_singleton]

/-- A smaller number has no more digits: both lose their last digit together. -/
theorem length_dec_mono {v w : Nat} (h : v ≤ w) : (dec v).length ≤ (dec w).length := by
  induction w using Nat.strongRecOn generalizing v with
  | ind w ih =>
    by_cases hv : v < 10
    · rw [length_dec_of_lt hv]
      exact length_dec_pos w
    · rw [length_dec_of_le (v := v) (by omega), length_dec_of_le (v := w) (by omega)]
      have hshorter := ih (w / 10) (by omega) (Nat.div_le_div_right h)
      omega

/-- The fixed texts of R83 have 92 bytes. -/
theorem length_serialize (r : Response) :
    (serialize r).length =
      92 + (responseStatusText r.status).length + (boolText r.changed).length + (dec r.balance).length +
        (dec r.pulseCount).length + (dec r.amount).length + r.message.length := by
  have hopen : jsonOpen.length = 11 := rfl
  have hbalance : jsonBalance.length = 17 := rfl
  have hcount : jsonCount.length = 23 := rfl
  have hmessage : jsonMessage.length = 13 := rfl
  have hchanged : jsonChanged.length = 17 := rfl
  have hamount : jsonAmount.length = 10 := rfl
  have hclose : jsonClose.length = 1 := rfl
  simp only [serialize, List.length_append]
  omega

theorem length_serialize_changed (b c amt : Nat) (message : Bytes) :
    (serialize ⟨.success, b, c, message, true, amt⟩).length =
      103 + (dec b).length + (dec c).length + (dec amt).length + message.length :=
  length_serialize _

theorem length_serialize_query (b c amt : Nat) (message : Bytes) :
    (serialize ⟨.success, b, c, message, false, amt⟩).length =
      104 + (dec b).length + (dec c).length + (dec amt).length + message.length :=
  length_serialize _

theorem length_serialize_error (b c amt : Nat) (message : Bytes) :
    (serialize ⟨.error, b, c, message, false, amt⟩).length =
      102 + (dec b).length + (dec c).length + (dec amt).length + message.length :=
  length_serialize _

/-- A command whose response has at most 255 bytes queues its frame and sets no flag (R180). -/
theorem afterCommand_of_length_le {r : Response} (h : (serialize r).length ≤ 255) (s : State)
    (raised : List ErrorCondition) :
    encodeFrame (serialize r) = some (afterCommand s r raised).txq ∧ (afterCommand s r raised).txph = .send ∧
      (afterCommand s r raised).status = s.status := by
  obtain ⟨f, hframe, htxq, hsend, hstatus⟩ | ⟨hnone, -⟩ := afterCommand_tx s r raised
  · exact ⟨htxq ▸ hframe, hsend, hstatus⟩
  · simp [encodeFrame_eq_some.2 ⟨h, rfl⟩] at hnone

/-- What the conditions of R85, with `d` of at most 38, say of a state's numbers and texts. -/
structure ShortTexts (d : Nat) (s : State) : Prop where
  width_le : d ≤ 38
  statusText : s.cfg.statusText.length + 3 * d ≤ 151
  resetCountAck : s.cfg.resetCountAck.length + 3 * d ≤ 151
  amount : ∀ v ≤ s.cfg.balMax, (dec v).length ≤ d
  bal : (dec s.bal).length ≤ d
  cnt : (dec s.cnt).length ≤ d

theorem State.Wf.shortTexts {s : State} {d : Nat} (h : s.Wf)
    (hd : d = max (dec s.cfg.balMax).length (dec s.cfg.cntMax).length) (hle : d ≤ 38)
    (hstatus : s.cfg.statusText.length + 3 * d ≤ 151) (hack : s.cfg.resetCountAck.length + 3 * d ≤ 151) :
    ShortTexts d s :=
  have hamount : ∀ v ≤ s.cfg.balMax, (dec v).length ≤ d := fun _ hv =>
    (length_dec_mono hv).trans (hd ▸ le_max_left _ _)
  { width_le := hle
    statusText := hstatus
    resetCountAck := hack
    amount := hamount
    bal := hamount _ h.bal_le
    cnt := (length_dec_mono h.cnt_le).trans (hd ▸ le_max_right _ _) }

/-- Every command answers with at most 255 bytes, whichever way it goes. The longest answer is that of a successful
amount command, which has four numbers. -/
theorem ShortTexts.exists_response {d : Nat} {s : State} (h : ShortTexts d s) (i : Instr) :
    ∃ r raised, exec i s = .next (afterCommand s r raised) ∧ (serialize r).length ≤ 255 := by
  obtain ⟨hd, hstatus, hack, hamount, hbal, hcnt⟩ := h
  have hpos := length_dec_pos s.bal
  have hzero : (dec 0).length = 1 := rfl
  cases i with
  | getBalance =>
    refine ⟨_, _, exec_getBalance s, ?_⟩
    rw [length_serialize_query]
    omega
  | getStatus =>
    refine ⟨_, _, exec_getStatus s, ?_⟩
    rw [length_serialize_query]
    omega
  | getCoinCount =>
    refine ⟨_, _, exec_getCoinCount s, ?_⟩
    rw [length_serialize_query]
    omega
  | addBalance a =>
    cases ha : Machine.amount s.cfg a with
    | none =>
      refine ⟨_, _, exec_addBalance_of_none ha, ?_⟩
      rw [length_serialize_error, show msgInvalidAmount.length = 14 from rfl]
      omega
    | some n =>
      obtain ⟨-, -, -, hn⟩ := amount_eq_some_iff.1 ha
      have hamt := hamount n hn
      obtain hfits | hover := le_or_gt (s.bal + n) s.cfg.balMax
      · refine ⟨_, _, exec_addBalance_of_le ha hfits, ?_⟩
        have hsum := hamount _ hfits
        rw [length_serialize_changed]
        omega
      · refine ⟨_, _, exec_addBalance_of_gt ha hover, ?_⟩
        rw [length_serialize_error, show msgBalanceOverflow.length = 16 from rfl]
        omega
  | subBalance a =>
    cases ha : Machine.amount s.cfg a with
    | none =>
      refine ⟨_, _, exec_subBalance_of_none ha, ?_⟩
      rw [length_serialize_error, show msgInvalidAmount.length = 14 from rfl]
      omega
    | some n =>
      obtain ⟨-, -, -, hn⟩ := amount_eq_some_iff.1 ha
      have hamt := hamount n hn
      obtain hfits | hshort := le_or_gt n s.bal
      · refine ⟨_, _, exec_subBalance_of_le ha hfits, ?_⟩
        have hrest := length_dec_mono (Nat.sub_le s.bal n)
        rw [length_serialize_changed]
        omega
      · refine ⟨_, _, exec_subBalance_of_gt ha hshort, ?_⟩
        rw [length_serialize_error, show msgInsufficientBalance.length = 20 from rfl]
        omega
  | resetBalance =>
    refine ⟨_, _, exec_resetBalance s, ?_⟩
    rw [length_serialize_changed]
    omega
  | resetCount =>
    refine ⟨_, _, exec_resetCount s, ?_⟩
    rw [length_serialize_changed]
    omega
  | unknown t =>
    refine ⟨_, _, exec_unknown t s, ?_⟩
    rw [length_serialize_error, show msgUnknownCommand.length = 15 from rfl]
    omega

/-- Settles O8: every response is short enough, so its frame is queued. -/
theorem responsesFitInOneFrame : Obligations.ResponsesFitInOneFrame := by
  intro i s d hwf hd hle hstatus hack
  obtain ⟨r, raised, hexec, hlength⟩ := (hwf.shortTexts hd hle hstatus hack).exists_response i
  exact ⟨_, serialize r, hexec, hlength, afterCommand_of_length_le hlength s raised⟩

end Sys2Proof.Machine
end

section
/-! PROOFS. A response is no command (70_reset_and_hazards.md R265): it begins with a byte that begins no keyword, and
neither of its ends is whitespace. -/

namespace Sys2Proof.Machine

theorem head?_serialize (r : Response) : (serialize r).head? = some 0x7B := rfl

theorem getLast?_serialize (r : Response) : (serialize r).getLast? = some 0x7D := by
  rw [serialize, List.getLast?_append_of_ne_nil _ (by decide)]
  rfl

theorem head?_ne_of_isCommandText {t : Bytes} (h : isCommandText t = true) : t.head? ≠ some 0x7B := by
  rcases isCommandText_iff.1 h with hkeyword | ⟨a, rfl⟩ | ⟨a, rfl⟩
  · have hall : ∀ keyword ∈ exactKeywords, keyword.head? ≠ some 0x7B := by decide
    exact hall t hkeyword
  · change some 0x41 ≠ some 0x7B
    decide
  · change some 0x53 ≠ some 0x7B
    decide

theorem isTrimmed_serialize (r : Response) : isTrimmed (serialize r) = true := by
  rw [isTrimmed, head?_serialize, getLast?_serialize]
  rfl

theorem parse_serialize (r : Response) : parse (serialize r) = .unknown (serialize r) := by
  refine parse_of_trim_eq ?_ (trim_of_isTrimmed (isTrimmed_serialize r))
  rw [Instr.isRow, Bool.not_eq_true', ← Bool.not_eq_true]
  exact fun h => head?_ne_of_isCommandText h (head?_serialize r)

/-- Settles O59: the response is read as unknown, and an unknown command keeps the wallet and saves nothing. -/
theorem echoedResponseIsUnknown : Obligations.EchoedResponseIsUnknown := by
  refine fun r s => ⟨parse_serialize r, _, parse_serialize r ▸ exec_unknown (serialize r) s, ?_⟩
  simp

end Sys2Proof.Machine
end

section
/-! PROOFS. Whole candidates and whole frames through the decoder (40_frame_codec.md R102 to R106): what one call makes
of a buffer, by the way its first candidate goes. -/

namespace Sys2Proof.Machine

/-! ## The two ways a complete candidate can go -/

/-- A complete candidate whose checksum matches is yielded (R105). -/
theorem decodeFrame_yield {length cs : Byte} {payload after : Bytes} (hl : payload.length = length.toNat)
    (hcs : checksum length.toNat payload = cs) :
    decodeFrame (0x7E :: length :: (payload ++ cs :: after)) = ⟨after, some payload, []⟩ := by
  rw [decodeFrame_complete hl, if_pos hcs]

/-- A complete candidate whose checksum does not match loses its marker only (R106). -/
theorem decodeFrame_mismatch {length cs : Byte} {payload after : Bytes} (hl : payload.length = length.toNat)
    (hcs : checksum length.toNat payload ≠ cs) :
    decodeFrame (0x7E :: length :: (payload ++ cs :: after)) =
      ⟨(decodeFrame (length :: (payload ++ cs :: after))).buffer,
        (decodeFrame (length :: (payload ++ cs :: after))).payload,
        length.toNat :: (decodeFrame (length :: (payload ++ cs :: after))).corrupt⟩ := by
  rw [decodeFrame_complete hl, if_neg hcs]

/-- Settles O32: the candidate is complete and fails its checksum. -/
theorem mismatchDropsTheMarkerOnly : Obligations.MismatchDropsTheMarkerOnly :=
  fun _ _ _ _ hl hcs => decodeFrame_mismatch hl hcs.symm

/-! ## Bytes before the marker -/

/-- Bytes without a marker are discarded one by one (R103). -/
theorem decodeFrame_append_of_notMem {garbage : Bytes} (h : (0x7E : Byte) ∉ garbage) (buf : Bytes) :
    decodeFrame (garbage ++ buf) = decodeFrame buf := by
  induction garbage with
  | nil => rfl
  | cons b garbage ih =>
    obtain ⟨hb, hrest⟩ := List.ne_and_not_mem_of_not_mem_cons h
    rw [List.cons_append, decodeFrame_of_ne _ (Ne.symm hb), ih hrest]

/-- Settles O30: the bytes alone are the bytes before an empty buffer. -/
theorem garbageBeforeTheMarkerIsDiscarded : Obligations.GarbageBeforeTheMarkerIsDiscarded := by
  refine ⟨fun _ buf h => decodeFrame_append_of_notMem h buf, fun garbage h => ?_⟩
  rw [← List.append_nil garbage, decodeFrame_append_of_notMem h, decodeFrame_nil]

/-! ## Whole frames -/

theorem toNat_ofNat_length {p : Bytes} (h : p.length ≤ 255) : (BitVec.ofNat 8 p.length).toNat = p.length := by
  rw [BitVec.toNat_ofNat, Nat.mod_eq_of_lt (by omega)]

/-- A frame at the front of the buffer is yielded, and exactly its bytes are consumed (R105). -/
theorem decodeFrame_frame_append {p f : Bytes} (h : encodeFrame p = some f) (after : Bytes) :
    decodeFrame (f ++ after) = ⟨after, some p, []⟩ := by
  obtain ⟨hle, rfl⟩ := encodeFrame_eq_some.1 h
  have hl := toNat_ofNat_length hle
  simpa using decodeFrame_yield (after := after) hl.symm (congrArg (checksum · p) hl)

/-- Settles O28. -/
theorem decodeInvertsEncode : Obligations.DecodeInvertsEncode :=
  fun _ _ after h => decodeFrame_frame_append h after

/-- A complete candidate whose checksum matches is the frame of its payload. -/
theorem encodeFrame_of_checksum_eq {length cs : Byte} {payload : Bytes} (hl : payload.length = length.toNat)
    (hcs : checksum length.toNat payload = cs) :
    encodeFrame payload = some (0x7E :: length :: (payload ++ [cs])) := by
  have hlt := length.isLt
  refine encodeFrame_eq_some.2 ⟨by omega, ?_⟩
  rw [hl, hcs, BitVec.ofNat_toNat, BitVec.setWidth_eq]

/-- The frame of what a call yields stands before what the call leaves: by the search's induction, in which every byte
that is dropped comes before the frame. -/
theorem exists_frame_of_payload {buf p : Bytes} (h : (decodeFrame buf).payload = some p) :
    ∃ before f, encodeFrame p = some f ∧ buf = before ++ f ++ (decodeFrame buf).buffer := by
  induction buf using decodeFrame_induction with
  | empty => cases h
  | discard b rest hb ih =>
    rw [decodeFrame_of_ne _ hb] at h ⊢
    obtain ⟨before, f, hf, heq⟩ := ih h
    exact ⟨b :: before, f, hf, congrArg (b :: ·) heq⟩
  | wait rest hw => rw [decodeFrame_wait hw] at h; cases h
  | complete length cs payload after hl ih =>
    by_cases hcs : checksum length.toNat payload = cs
    · rw [decodeFrame_yield hl hcs] at h ⊢
      cases h
      exact ⟨[], _, encodeFrame_of_checksum_eq hl hcs, by simp⟩
    · rw [decodeFrame_mismatch hl hcs] at h ⊢
      obtain ⟨before, f, hf, heq⟩ := ih h
      exact ⟨0x7E :: before, f, hf, congrArg (0x7E :: ·) heq⟩

/-- Settles O29. -/
theorem decodedPayloadWasAFrame : Obligations.DecodedPayloadWasAFrame :=
  fun _ _ h => exists_frame_of_payload h

/-- Settles O33: the candidate loses its marker, the rest of it is discarded, and the frame behind it is yielded. -/
theorem corruptedFrameIsSkipped : Obligations.CorruptedFrameIsSkipped := by
  intro p q f after cs hle hcs hmarker hf
  have hl := toNat_ofNat_length hle
  have hsearch : decodeFrame (BitVec.ofNat 8 p.length :: (p ++ cs :: (f ++ after))) = ⟨after, some q, []⟩ := by
    rw [← decodeFrame_frame_append hf after, ← decodeFrame_append_of_notMem hmarker (f ++ after)]
    simp
  have hmismatch := decodeFrame_mismatch (after := f ++ after) hl.symm (hl.symm ▸ hcs.symm)
  rw [hsearch, hl] at hmismatch
  simpa using hmismatch

/-! ## Incomplete candidates -/

/-- A call that yields nothing leaves nothing, or a candidate that waits: fewer than the 258 bytes of the longest frame
(R71, R104). -/
theorem buffer_of_payload_none {buf : Bytes} (h : (decodeFrame buf).payload = none) :
    (decodeFrame buf).buffer.length < 258 ∧
      ((decodeFrame buf).buffer = [] ∨ (decodeFrame buf).buffer.head? = some 0x7E) := by
  induction buf using decodeFrame_induction with
  | empty => simp
  | discard b rest hb ih =>
    rw [decodeFrame_of_ne _ hb] at h ⊢
    exact ih h
  | wait rest hw =>
    rw [decodeFrame_wait hw]
    have hlength := (rest.getD 0 0).isLt
    exact ⟨by simp only [List.length_cons]; omega, .inr rfl⟩
  | complete length cs payload after hl ih =>
    by_cases hcs : checksum length.toNat payload = cs
    · rw [decodeFrame_yield hl hcs] at h
      cases h
    · rw [decodeFrame_mismatch hl hcs] at h ⊢
      exact ih h

/-- Settles O31: both waits of R104 are the wait of `decodeFrame_wait`. -/
theorem incompleteCandidateWaits : Obligations.IncompleteCandidateWaits := by
  refine ⟨fun garbage rest hgarbage hshort => ?_, fun _ h => buffer_of_payload_none h⟩
  rw [decodeFrame_append_of_notMem hgarbage]
  refine decodeFrame_wait ?_
  simp only [List.length_cons] at hshort
  omega

/-- Settles O34: the first bytes of a frame are none, or a candidate that its length byte, once it is there, shows to
be incomplete. -/
theorem partialFrameYieldsNothing : Obligations.PartialFrameYieldsNothing := by
  intro p f k hf hk
  have hlength := encodeFrame_length hf
  obtain ⟨hle, rfl⟩ := encodeFrame_eq_some.1 hf
  match k with
  | 0 => rfl
  | 1 => exact decodeFrame_wait (rest := []) (by decide)
  | k + 2 =>
    simp only [List.take_succ_cons]
    refine decodeFrame_wait ?_
    rw [List.getD_cons_zero, toNat_ofNat_length hle, List.length_cons, List.length_take]
    omega

end Sys2Proof.Machine
end

section
/-! PROOFS. The payloads that a byte stream yields (40_frame_codec.md section 5): repeated decoding, one equation for
each way its first candidate can go, and that it does not matter when the decoder runs. -/

namespace Sys2Proof.Machine

/-! ## The equations of `payloadsOf` -/

theorem payloadsWithin_of_none {buf : Bytes} (h : (decodeFrame buf).payload = none) (n : Nat) :
    payloadsWithin n buf = ([], (decodeFrame buf).buffer) := by
  cases n with
  | zero => rfl
  | succ n => simp only [payloadsWithin, h]

theorem payloadsWithin_succ_of_some {buf p : Bytes} (h : (decodeFrame buf).payload = some p) (n : Nat) :
    payloadsWithin (n + 1) buf =
      (p :: (payloadsWithin n (decodeFrame buf).buffer).1, (payloadsWithin n (decodeFrame buf).buffer).2) := by
  simp only [payloadsWithin, h]

/-- The number of calls is no part of the result: any number from the buffer's length on yields the same. -/
theorem payloadsWithin_eq_of_length_le {n m : Nat} {buf : Bytes} (hn : buf.length ≤ n) (hm : buf.length ≤ m) :
    payloadsWithin n buf = payloadsWithin m buf := by
  induction n generalizing m buf with
  | zero =>
    have hnone : (decodeFrame buf).payload = none := by simp [List.eq_nil_of_length_eq_zero (Nat.le_zero.1 hn)]
    rw [payloadsWithin_of_none hnone, payloadsWithin_of_none hnone]
  | succ n ih =>
    cases hp : (decodeFrame buf).payload with
    | none => rw [payloadsWithin_of_none hp, payloadsWithin_of_none hp]
    | some p =>
      have hshorter := (decodeFrame_buffer_length buf).2 p hp
      obtain ⟨m, rfl⟩ : ∃ m', m = m' + 1 := ⟨m - 1, by omega⟩
      rw [payloadsWithin_succ_of_some hp, payloadsWithin_succ_of_some hp, ih (m := m) (by omega) (by omega)]

theorem payloadsOf_of_none {buf : Bytes} (h : (decodeFrame buf).payload = none) :
    payloadsOf buf = ([], (decodeFrame buf).buffer) :=
  payloadsWithin_of_none h _

theorem payloadsOf_of_some {buf p : Bytes} (h : (decodeFrame buf).payload = some p) :
    payloadsOf buf = (p :: (payloadsOf (decodeFrame buf).buffer).1, (payloadsOf (decodeFrame buf).buffer).2) := by
  have hshorter := (decodeFrame_buffer_length buf).2 p h
  obtain ⟨n, hn⟩ : ∃ n, buf.length = n + 1 := ⟨buf.length - 1, by omega⟩
  rw [payloadsOf, hn, payloadsWithin_succ_of_some h, payloadsWithin_eq_of_length_le (by omega) le_rfl]
  rfl

/-- The failed candidates of the first call are no part of the result. -/
theorem payloadsOf_congr {a b : Bytes} (hpayload : (decodeFrame a).payload = (decodeFrame b).payload)
    (hbuffer : (decodeFrame a).buffer = (decodeFrame b).buffer) : payloadsOf a = payloadsOf b := by
  cases hp : (decodeFrame b).payload with
  | none => rw [payloadsOf_of_none hp, payloadsOf_of_none (hpayload.trans hp), hbuffer]
  | some p => rw [payloadsOf_of_some hp, payloadsOf_of_some (hpayload.trans hp), hbuffer]

theorem payloadsOf_of_ne {b : Byte} (rest : Bytes) (h : b ≠ 0x7E) : payloadsOf (b :: rest) = payloadsOf rest :=
  payloadsOf_congr (by rw [decodeFrame_of_ne _ h]) (by rw [decodeFrame_of_ne _ h])

theorem payloadsOf_wait {rest : Bytes} (h : rest.length < (rest.getD 0 0).toNat + 2) :
    payloadsOf (0x7E :: rest) = ([], 0x7E :: rest) := by
  rw [payloadsOf_of_none (by rw [decodeFrame_wait h]), decodeFrame_wait h]

theorem payloadsOf_yield {length cs : Byte} {payload after : Bytes} (hl : payload.length = length.toNat)
    (hcs : checksum length.toNat payload = cs) :
    payloadsOf (0x7E :: length :: (payload ++ cs :: after)) =
      (payload :: (payloadsOf after).1, (payloadsOf after).2) := by
  rw [payloadsOf_of_some (by rw [decodeFrame_yield hl hcs]), decodeFrame_yield hl hcs]

theorem payloadsOf_mismatch {length cs : Byte} {payload after : Bytes} (hl : payload.length = length.toNat)
    (hcs : checksum length.toNat payload ≠ cs) :
    payloadsOf (0x7E :: length :: (payload ++ cs :: after)) = payloadsOf (length :: (payload ++ cs :: after)) :=
  payloadsOf_congr (by rw [decodeFrame_mismatch hl hcs]) (by rw [decodeFrame_mismatch hl hcs])

/-- The induction along a stream: as `decodeFrame_induction`, but a candidate that is yielded may use the bytes behind
it, with which repeated decoding goes on. -/
theorem payloadsOf_induction {P : Bytes → Prop} (empty : P [])
    (discard : ∀ b rest, b ≠ 0x7E → P rest → P (b :: rest))
    (wait : ∀ rest : Bytes, rest.length < (rest.getD 0 0).toNat + 2 → P (0x7E :: rest))
    (yield : ∀ (length cs : Byte) (payload after : Bytes), payload.length = length.toNat →
      checksum length.toNat payload = cs → P after → P (0x7E :: length :: (payload ++ cs :: after)))
    (mismatch : ∀ (length cs : Byte) (payload after : Bytes), payload.length = length.toNat →
      checksum length.toNat payload ≠ cs → P (length :: (payload ++ cs :: after)) →
      P (0x7E :: length :: (payload ++ cs :: after))) (buf : Bytes) : P buf := by
  induction hn : buf.length using Nat.strongRecOn generalizing buf with
  | ind n ih =>
    subst hn
    rcases buffer_cases buf with rfl | ⟨b, rest, rfl, hb⟩ | ⟨rest, rfl, hw⟩ | ⟨length, cs, payload, after, rfl, hl⟩
    · exact empty
    · exact discard _ _ hb (ih _ (by simp) _ rfl)
    · exact wait _ hw
    · by_cases hcs : checksum length.toNat payload = cs
      · exact yield _ _ _ _ hl hcs (ih _ (by simp; omega) _ rfl)
      · exact mismatch _ _ _ _ hl hcs (ih _ (by simp) _ rfl)

/-! ## Schedules -/

/-- Decoding what has come and going on with the rest is decoding all of it: a candidate that has come whole goes the
same way whatever follows it, and one that waits is taken up again with what follows. -/
theorem payloadsOf_append (buf more : Bytes) :
    payloadsOf (buf ++ more) =
      ((payloadsOf buf).1 ++ (payloadsOf ((payloadsOf buf).2 ++ more)).1,
        (payloadsOf ((payloadsOf buf).2 ++ more)).2) := by
  induction buf using payloadsOf_induction with
  | empty => rfl
  | discard b rest hb ih => rw [List.cons_append, payloadsOf_of_ne _ hb, payloadsOf_of_ne _ hb, ih]
  | wait rest hw => rw [payloadsOf_wait hw, List.nil_append]
  | yield length cs payload after hl hcs ih =>
    simp only [List.cons_append, List.append_assoc, payloadsOf_yield hl hcs, ih]
  | mismatch length cs payload after hl hcs ih =>
    simp only [List.cons_append, List.append_assoc] at ih ⊢
    rw [payloadsOf_mismatch hl hcs, payloadsOf_mismatch hl hcs, ih]

/-- Settles O35. -/
theorem payloadsAreScheduleIndependent : Obligations.PayloadsAreScheduleIndependent := payloadsOf_append

/-- What repeated decoding leaves yields no more: it has gone on with no further byte. -/
theorem payloadsOf_left (buf : Bytes) : (payloadsOf (payloadsOf buf).2).1 = [] := by
  have hmore := congrArg Prod.fst (payloadsOf_append buf [])
  rwa [List.append_nil, List.append_nil, List.self_eq_append_right] at hmore

/-! ## The pending payloads -/

/-- One call of the decoder moves the first payload, if there is one, out of the stream (R109). -/
theorem payloadsOf_decodeFrame (buf : Bytes) :
    (decodeFrame buf).payload.toList ++ (payloadsOf (decodeFrame buf).buffer).1 = (payloadsOf buf).1 := by
  cases hp : (decodeFrame buf).payload with
  | none =>
    have hleft := payloadsOf_left buf
    rw [payloadsOf_of_none hp] at hleft ⊢
    exact hleft
  | some p => rw [payloadsOf_of_some hp]; rfl

/-- A received byte adds payloads only behind those that are pending. -/
theorem exists_payloadsOf_append (buf more : Bytes) :
    ∃ new, (payloadsOf (buf ++ more)).1 = (payloadsOf buf).1 ++ new :=
  ⟨_, congrArg Prod.fst (payloadsOf_append buf more)⟩

theorem pendingPayloads_dec {s : State} (hslot : s.slot = none) :
    (decodeFrame s.rxbuf).payload.toList ++ (payloadsOf (decodeFrame s.rxbuf).buffer).1 = pendingPayloads s := by
  rw [payloadsOf_decodeFrame, pendingPayloads, hslot]
  rfl

theorem Effect.pendingPayloads_cmd {s t : State} (h : Effect .cmd s t) (henabled : enabled .cmd s = true) :
    ∃ p, s.slot = some p ∧ pendingPayloads s = p :: pendingPayloads t := by
  cases h with
  | notEnabled disabled => simp [henabled] at disabled
  | cmd p r raised booted slot => exact ⟨p, slot, by simp [pendingPayloads, slot]⟩

theorem Effect.pendingPayloads_rxIn_of_lt {b : Byte} {s t : State} (h : Effect (.rxIn b) s t)
    (room : s.rxbuf.length < s.cfg.rxCap) :
    pendingPayloads t = s.slot.toList ++ (payloadsOf (s.rxbuf ++ [b])).1 := by
  cases h with
  | notEnabled disabled => simp [enabled] at disabled
  | rxKept => rfl
  | rxLost _ full => exact absurd room full.not_gt

theorem Effect.pendingPayloads_rxIn_of_le {b : Byte} {s t : State} (h : Effect (.rxIn b) s t)
    (full : s.cfg.rxCap ≤ s.rxbuf.length) : pendingPayloads t = pendingPayloads s := by
  cases h with
  | rxKept _ room => exact absurd room full.not_gt
  | _ => rfl

/-- Every step but `CMD`, `RX_IN` and `RESET` leaves the sequence: only `DEC` touches its two parts. -/
theorem Effect.pendingPayloads_eq {e : Event} {s t : State} (h : Effect e s t) (hreset : e ≠ .reset)
    (hcmd : stepName e ≠ .cmd) (hrx : stepName e ≠ .rxIn) : pendingPayloads t = pendingPayloads s := by
  cases h with
  | rxKept => exact absurd rfl hrx
  | rxLost => exact absurd rfl hrx
  | dec slot => exact pendingPayloads_dec slot
  | cmd => exact absurd rfl hcmd
  | reset => exact absurd rfl hreset
  | _ => rfl

/-- Settles O36: the four clauses, for the state that the step answers. -/
theorem pendingPayloadsKeepTheirOrder : Obligations.PendingPayloadsKeepTheirOrder := by
  intro e s hreset
  obtain ⟨t, hfire, heffect⟩ := exists_fire_effect e s
  refine ⟨t, hfire, ?_, ?_, ?_, heffect.pendingPayloads_eq hreset⟩
  · rintro rfl
    exact heffect.pendingPayloads_cmd
  · rintro b rfl room
    have hkept := heffect.pendingPayloads_rxIn_of_lt room
    obtain ⟨new, hnew⟩ := exists_payloadsOf_append s.rxbuf [b]
    exact ⟨hkept, new, by rw [hkept, hnew, ← List.append_assoc]; rfl⟩
  · rintro b rfl
    exact heffect.pendingPayloads_rxIn_of_le

end Sys2Proof.Machine
end

section
/-! PROOFS. The steps of the RX and DEC agents (40_frame_codec.md R108, R109), and the way of a frame from the line to
its command (43_command_processor.md R180). -/

namespace Sys2Proof.Machine

theorem fire_rxIn_of_lt {s : State} (b : Byte) (room : s.rxbuf.length < s.cfg.rxCap) :
    fire (.rxIn b) s = .next { s with rxbuf := s.rxbuf ++ [b] } :=
  (fire_of_enabled rfl).trans (congrArg Host.Outcome.next (if_pos room))

theorem fire_rxIn_of_le {s : State} (b : Byte) (full : s.cfg.rxCap ≤ s.rxbuf.length) :
    fire (.rxIn b) s =
      .next { s with status := s.status ||| 1, outputs := s.outputs ++ [.raised (.rxOverrun b)] } :=
  (fire_of_enabled rfl).trans (congrArg Host.Outcome.next (if_neg full.not_gt))

theorem fire_dec_of_enabled {s : State} (h : enabled .dec s = true) :
    fire .dec s = .next
      { s with
        rxbuf := (decodeFrame s.rxbuf).buffer
        slot := (decodeFrame s.rxbuf).payload
        outputs := s.outputs ++ (decodeFrame s.rxbuf).corrupt.map fun n => .raised (.frameCorrupt n) } := by
  obtain ⟨hslot, -⟩ := enabled_dec_iff.1 h
  rw [fire_of_enabled h, perform, decStep_eq, hslot, Option.orElse_eq_orElse, Option.orElse_eq_or, Option.or_none]

/-- Settles O38. -/
theorem decoderStepMakesProgress : Obligations.DecoderStepMakesProgress :=
  fun _ => ⟨enabled_dec_iff, fire_dec_of_enabled⟩

/-- With `SLOT` empty, a `DEC` that is not enabled finds a buffer that yields nothing and that it leaves. -/
theorem rxbuf_length_of_not_enabled_dec {s : State} (hslot : s.slot = none) (h : enabled .dec s = false) :
    s.rxbuf.length < 258 := by
  rw [← Bool.not_eq_true, enabled_dec_iff] at h
  have hstays : (decodeFrame s.rxbuf).buffer = s.rxbuf ∧ (decodeFrame s.rxbuf).payload = none := by
    by_contra hprogress
    exact h ⟨hslot, hprogress⟩
  obtain ⟨hbuffer, hpayload⟩ := hstays
  exact hbuffer ▸ (buffer_of_payload_none hpayload).1

/-- Settles O37: the two ways of `RX_IN`, and a legal `RX_CAP` has room for what the decoder leaves. -/
theorem receivedByteIsKeptOrFlagged : Obligations.ReceivedByteIsKeptOrFlagged := by
  refine ⟨fun b _ => ⟨rfl, fire_rxIn_of_lt b, fire_rxIn_of_le b⟩, fun s hlegal hslot hdisabled => ?_⟩
  obtain ⟨-, -, hcap, -⟩ := hlegal
  have hshort := rxbuf_length_of_not_enabled_dec hslot hdisabled
  exact ⟨hshort, by omega⟩

/-! ## A frame on the line -/

/-- Bytes that fit arrive one by one and stand in `RXBUF` in order. -/
theorem runSteps_rxIn {s : State} {received : Bytes} {later : List Event} (n : Nat) (legal : s.cfg.Legal)
    (room : s.rxbuf.length + received.length ≤ s.cfg.rxCap) (hagenda : s.agenda = received.map .rxIn ++ later) :
    runSteps (received.length + n) s = runSteps n { s with rxbuf := s.rxbuf ++ received, agenda := later } := by
  induction received generalizing s with
  | nil =>
    obtain rfl : s.agenda = later := hagenda
    simp
  | cons b received ih =>
    rw [List.length_cons] at room
    have hstep : step s =
        .next { s with rxbuf := s.rxbuf ++ [b], agenda := received.map .rxIn ++ later } := by
      rw [step_of_agenda_cons legal hagenda]
      exact fire_rxIn_of_lt b (by simp only; omega)
    have hrest := ih (s := { s with rxbuf := s.rxbuf ++ [b], agenda := received.map .rxIn ++ later }) legal
      (by simp; omega) rfl
    rw [List.length_cons, Nat.add_right_comm, runSteps_succ hstep, hrest, List.append_assoc, List.singleton_append]

/-- `DEC` on a frame, with `SLOT` empty, fills `SLOT` with the frame's payload and empties `RXBUF`. -/
theorem fire_dec_of_frame {s : State} {p : Bytes} (hslot : s.slot = none) (hframe : encodeFrame p = some s.rxbuf) :
    fire .dec s = .next { s with rxbuf := [], slot := some p } := by
  have hdecode : decodeFrame s.rxbuf = ⟨[], some p, []⟩ := by
    simpa using decodeFrame_frame_append hframe []
  have henabled : enabled .dec s = true := enabled_dec_iff.2 ⟨hslot, by simp [hdecode]⟩
  rw [fire_dec_of_enabled henabled, hdecode, List.map_nil, List.append_nil]

theorem fire_cmd_of_slot {s : State} {p : Bytes} (hbooted : s.booted = true) (hidle : s.txph = .idle)
    (hslot : s.slot = some p) : fire .cmd s = exec (parse p) { s with slot := none } := by
  rw [fire_of_enabled (enabled_cmd_iff.2 ⟨hbooted, ⟨p, hslot⟩, hidle⟩)]
  exact cmdStep_of_some hslot

/-- A run of one step answers what the step answers. -/
theorem runSteps_one (s : State) : runSteps 1 s = step s := by
  cases h : step s <;> simp only [runSteps, h]

/-- Settles O25: the bytes fill `RXBUF` with the frame, `DEC` moves its payload to `SLOT`, and `CMD` takes it from
there, so that both are empty again. -/
theorem frameOnTheLineRunsItsCommand : Obligations.FrameOnTheLineRunsItsCommand := by
  intro s p f later legal hbooted hidle hslot hrxbuf hframe hagenda
  have hroom : f.length ≤ s.cfg.rxCap := by
    obtain ⟨-, -, hcap, -⟩ := legal
    have hlength := encodeFrame_length hframe
    have hpayload := (encodeFrame_eq_some.1 hframe).1
    omega
  have hreceived := runSteps_rxIn 2 legal (by simpa [hrxbuf] using hroom) (hagenda.trans (List.append_assoc ..))
  rw [hrxbuf, List.nil_append] at hreceived
  have hdec : step { s with rxbuf := f, agenda := [.dec, .cmd] ++ later } =
      .next { s with rxbuf := [], slot := some p, agenda := .cmd :: later } := by
    rw [step_of_agenda_cons (s := { s with rxbuf := f, agenda := [.dec, .cmd] ++ later }) legal rfl]
    exact fire_dec_of_frame hslot hframe
  have hcmd : step { s with rxbuf := [], slot := some p, agenda := .cmd :: later } =
      exec (parse p) { s with rxbuf := [], slot := none, agenda := later } := by
    rw [step_of_agenda_cons (s := { s with rxbuf := [], slot := some p, agenda := .cmd :: later }) legal rfl]
    exact fire_cmd_of_slot hbooted hidle rfl
  rw [hreceived, runSteps_succ hdec, runSteps_one, hcmd, ← hrxbuf, ← hslot]

end Sys2Proof.Machine
end

section
/-! PROOFS. The steps of the TX agent (40_frame_codec.md R111 to R114) and the transmission of a whole queue. -/

namespace Sys2Proof.Machine

theorem fire_txBegin_of_enabled {s : State} (h : enabled .txBegin s = true) :
    fire .txBegin s = .next { s with dir := true } :=
  fire_of_enabled h

theorem fire_txByte_of_cons {s : State} {b : Byte} {q : Bytes} (h : enabled .txByte s = true) (hq : s.txq = b :: q) :
    fire .txByte s = .next { s with txq := q, outputs := s.outputs ++ [.emit b] } := by
  rw [fire_of_enabled h, perform, txByte_of_cons hq]

theorem fire_txEnd_of_enabled {s : State} (h : enabled .txEnd s = true) :
    fire .txEnd s = .next { s with dir := false, txph := .idle } :=
  fire_of_enabled h

/-- Settles O39. -/
theorem transmitEmitsTheFirstByte : Obligations.TransmitEmitsTheFirstByte :=
  ⟨fun _ => enabled_txByte_iff, fun _ _ _ => fire_txByte_of_cons⟩

/-- With the line up or absent, one `TX_BYTE` for each queued byte emits the queue in order. -/
theorem runEvents_txByte {s : State} (hsend : s.txph = .send) (line : s.dir = true ∨ s.cfg.hasDir = false) :
    runEvents (List.replicate s.txq.length .txByte) s =
      { s with txq := [], outputs := s.outputs ++ s.txq.map .emit } := by
  induction hq : s.txq generalizing s with
  | nil =>
    change s = { s with txq := [], outputs := s.outputs ++ [] }
    rw [List.append_nil, ← hq]
  | cons b q ih =>
    have hfire := fire_txByte_of_cons (enabled_txByte_iff.2 ⟨hsend, by simp [hq], line⟩) hq
    have hrest := ih (s := { s with txq := q, outputs := s.outputs ++ [.emit b] }) hsend line rfl
    rw [List.length_cons, List.replicate_succ, runEvents_cons, fireState_of_fire hfire, hrest, List.append_assoc]
    rfl

/-- With the line up or absent, the queue is emitted and `TX_END` returns to listening. -/
theorem runEvents_drain {s : State} (hsend : s.txph = .send) (line : s.dir = true ∨ s.cfg.hasDir = false) :
    runEvents (List.replicate s.txq.length .txByte ++ [.txEnd]) s =
      { s with txq := [], txph := .idle, dir := false, outputs := s.outputs ++ s.txq.map .emit } := by
  rw [runEvents_append, runEvents_txByte hsend line, runEvents_cons, runEvents_nil]
  exact fireState_of_fire (fire_txEnd_of_enabled (enabled_txEnd_iff.2 ⟨hsend, rfl⟩))

/-- Settles O42: `TX_BEGIN` brings the line up where it is there and low, which in a well-shaped state it is only while
bytes are queued. -/
theorem queuedFrameIsSentWhole : Obligations.QueuedFrameIsSentWhole := by
  intro s hwf hsend
  unfold sendSchedule
  by_cases hlow : s.cfg.hasDir = true ∧ s.dir = false
  · obtain ⟨hline, hdir⟩ := hlow
    have hqueued : s.txq ≠ [] := fun hdrained => by
      have hup := hwf.drained_dir hsend hdrained
      simp [hline, hdir] at hup
    have hfire := fire_txBegin_of_enabled (enabled_txBegin_iff.2 ⟨hsend, hdir, hline, hqueued⟩)
    rw [if_pos (by simp [hline, hdir]), List.append_assoc, runEvents_append, runEvents_cons, runEvents_nil,
      fireState_of_fire hfire]
    exact runEvents_drain (s := { s with dir := true }) hsend (.inl rfl)
  · have line : s.dir = true ∨ s.cfg.hasDir = false := by
      simpa [imp_iff_not_or, or_comm] using hlow
    rw [if_neg (by simpa using hlow), List.nil_append]
    exact runEvents_drain hsend line

end Sys2Proof.Machine
end

section
/-! PROOFS. The debounce test and the service of one edge (41_pulse_counter.md R140 to R146). -/

namespace Sys2Proof.Machine

/-! ## The debounce test -/

theorem debounceAccepts_iff {c : Config} {last : Option Nat} {now : Nat} :
    debounceAccepts c last now = true ↔ ∀ t, last = some t → t + c.debounceWindowMs < now := by
  cases last with
  | none => simp [debounceAccepts]
  | some t => simpa [debounceAccepts] using Nat.lt_sub_iff_add_lt'

theorem debounceAccepts_some_iff {c : Config} {t now : Nat} :
    debounceAccepts c (some t) now = true ↔ t + c.debounceWindowMs < now := by
  simp [debounceAccepts_iff]

theorem debounceAccepts_some_eq_false_iff {c : Config} {t now : Nat} :
    debounceAccepts c (some t) now = false ↔ now ≤ t + c.debounceWindowMs := by
  rw [← Bool.not_eq_true, debounceAccepts_some_iff, Nat.not_lt]

/-- Settles O47: the window itself is not past the window, the millisecond after it is. -/
theorem debounceTestIsStrict : Obligations.DebounceTestIsStrict := fun _ _ _ =>
  ⟨rfl, debounceAccepts_some_eq_false_iff.2 le_rfl, debounceAccepts_some_iff.2 (Nat.lt_succ_self _),
    fun _ => debounceAccepts_some_iff.trans Nat.lt_sub_iff_add_lt'.symm⟩

/-! ## The edge and its service -/

theorem fire_edge (s : State) : fire .edge s = .next { s with latch := true } := fire_of_enabled rfl

/-- Settles O44. -/
theorem edgesAreCapturedAndCoalesce : Obligations.EdgesAreCapturedAndCoalesce := by
  refine ⟨fun s => ⟨rfl, fire_edge s⟩, fun s hlatch => ?_⟩
  have hset : { s with latch := true } = s := by rw [← hlatch]
  rw [fire_edge, hset]

theorem fire_pulse_of_enabled {now : Nat} {s : State} (h : enabled (.pulse now) s = true) :
    fire (.pulse now) s = .next (pulse now s) :=
  fire_of_enabled h

theorem pulse_of_accepts {now : Nat} {s : State} (h : debounceAccepts s.cfg s.last now = true) :
    pulse now s =
      { s with
        latch := false, clk := some now, last := some now
        bal := satInc s.bal s.cfg.balMax, cnt := satInc s.cnt s.cfg.cntMax } := by
  rcases pulse_cases now s with ⟨-, heq⟩ | ⟨hreject, -⟩ | ⟨hreject, -⟩
  · exact heq
  · simp [h] at hreject
  · simp [h] at hreject

/-- What `REJECT_POLICY` makes of a register's value at a rejected edge (R145). -/
def rejectedValue (c : Config) (v : Nat) : Nat := if c.rejectPolicy = .zero then 0 else v

theorem rejectedValue_of_zero {c : Config} (h : c.rejectPolicy = .zero) (v : Nat) : rejectedValue c v = 0 := if_pos h

theorem rejectedValue_of_ignore {c : Config} (h : c.rejectPolicy = .ignore) (v : Nat) : rejectedValue c v = v := by
  simp [rejectedValue, h]

/-- A second rejected edge does no more than the first. -/
theorem rejectedValue_rejectedValue (c : Config) (v : Nat) :
    rejectedValue c (rejectedValue c v) = rejectedValue c v := by
  cases h : c.rejectPolicy with
  | zero => simp only [rejectedValue_of_zero h]
  | ignore => simp only [rejectedValue_of_ignore h]

theorem pulse_of_rejects {now : Nat} {s : State} (h : debounceAccepts s.cfg s.last now = false) :
    pulse now s =
      { s with
        latch := false, clk := some now
        bal := rejectedValue s.cfg s.bal, cnt := rejectedValue s.cfg s.cnt } := by
  rcases pulse_cases now s with ⟨haccept, -⟩ | ⟨-, hpolicy, heq⟩ | ⟨-, hpolicy, heq⟩
  · simp [h] at haccept
  · simp only [heq, rejectedValue_of_zero hpolicy]
  · simp only [heq, rejectedValue_of_ignore hpolicy]

/-- Settles O45: an accepted edge counts with `satInc`, which adds one below the maximum and stays at it. -/
theorem acceptedEdgeAddsOneCredit : Obligations.AcceptedEdgeAddsOneCredit := by
  intro now s henabled hpast
  refine ⟨pulse now s, fire_pulse_of_enabled henabled, ?_⟩
  rw [pulse_of_accepts (debounceAccepts_iff.2 hpast)]
  exact ⟨rfl, satInc_of_lt, fun hmax => hmax ▸ satInc_max _, satInc_of_lt, fun hmax => hmax ▸ satInc_max _⟩

/-- Settles O46. -/
theorem rejectedEdgeFollowsThePolicy : Obligations.RejectedEdgeFollowsThePolicy := by
  intro now t s henabled hlast hwithin
  have hreject : debounceAccepts s.cfg s.last now = false := by
    rw [hlast]
    exact debounceAccepts_some_eq_false_iff.2 hwithin
  rw [fire_pulse_of_enabled henabled, pulse_of_rejects hreject]
  exact ⟨fun hzero => by simp only [rejectedValue_of_zero hzero],
    fun hignore => by simp only [rejectedValue_of_ignore hignore]⟩

end Sys2Proof.Machine
end

section
/-! PROOFS. A coin and its ringing (41_pulse_counter.md R148): runs of edges, each served before the next one comes. -/

namespace Sys2Proof.Machine

/-- An edge and its service come to the service alone, which clears the latch again. -/
theorem runEvents_edgesAt_cons {s : State} {now : Nat} (later : List Nat) (hbooted : s.booted = true)
    (hclock : ∀ c, s.clk = some c → c ≤ now) :
    runEvents (edgesAt (now :: later)) s = runEvents (edgesAt later) (pulse now s) := by
  have hserved : fire (.pulse now) { s with latch := true } = .next (pulse now s) :=
    fire_pulse_of_enabled (enabled_pulse_iff.2 ⟨rfl, hbooted, hclock⟩)
  change runEvents (.edge :: .pulse now :: edgesAt later) s = _
  rw [runEvents_cons, fireState_of_fire (fire_edge s), runEvents_cons, fireState_of_fire hserved]

/-- The same for an edge within the window of the last accepted one, which is rejected. -/
theorem runEvents_edgesAt_cons_of_within {s : State} {first now : Nat} (later : List Nat) (hbooted : s.booted = true)
    (hlast : s.last = some first) (hclock : ∀ c, s.clk = some c → c ≤ now)
    (hwithin : now ≤ first + s.cfg.debounceWindowMs) :
    runEvents (edgesAt (now :: later)) s =
      runEvents (edgesAt later)
        { s with
          latch := false, clk := some now
          bal := rejectedValue s.cfg s.bal, cnt := rejectedValue s.cfg s.cnt } := by
  have hreject : debounceAccepts s.cfg s.last now = false := hlast ▸ debounceAccepts_some_eq_false_iff.2 hwithin
  rw [runEvents_edgesAt_cons later hbooted hclock, pulse_of_rejects hreject]

/-- Edges that are all within the window of the last accepted one do together what one rejected edge does, and the
clock record is the last one's reading. -/
theorem runEvents_edgesAt_of_within {s : State} {first ring : Nat} {ringing : List Nat} (hbooted : s.booted = true)
    (hlast : s.last = some first) (hclock : ∀ c, s.clk = some c → c ≤ ring)
    (hsorted : (ring :: ringing).Pairwise (· ≤ ·))
    (hwithin : ∀ t ∈ ring :: ringing, t ≤ first + s.cfg.debounceWindowMs) :
    runEvents (edgesAt (ring :: ringing)) s =
      { s with
        latch := false, clk := some (ringing.getLastD ring)
        bal := rejectedValue s.cfg s.bal, cnt := rejectedValue s.cfg s.cnt } := by
  induction ringing generalizing s ring with
  | nil => exact runEvents_edgesAt_cons_of_within [] hbooted hlast hclock (hwithin ring List.mem_cons_self)
  | cons next ringing ih =>
    obtain ⟨hring, hlater⟩ := List.pairwise_cons.1 hsorted
    rw [runEvents_edgesAt_cons_of_within _ hbooted hlast hclock (hwithin ring List.mem_cons_self), ih]
    case hbooted => exact hbooted
    case hlast => exact hlast
    case hclock => exact fun c hc => Option.some.inj hc ▸ hring next List.mem_cons_self
    case hsorted => exact hlater
    case hwithin => exact fun t ht => hwithin t (List.mem_cons_of_mem ring ht)
    simp only [rejectedValue_rejectedValue, List.getLastD_cons]

/-- With `v` within its width, `satInc` is the saturating sum. -/
theorem satInc_eq_min {v max : Nat} (h : v ≤ max) : satInc v max = min (v + 1) max := by
  unfold satInc
  split <;> omega

/-- Settles O50: the first edge is accepted, and the ringing does what one rejected edge does. -/
theorem ringingGivesOneCreditUnderIgnore : Obligations.RingingGivesOneCreditUnderIgnore := by
  intro s first ring ringing hwf hbooted hclock hpast hsorted hwithin
  obtain ⟨hfirst, hringing⟩ := List.pairwise_cons.1 hsorted
  refine ⟨_, rfl, ?_⟩
  rw [runEvents_edgesAt_cons _ hbooted hclock, pulse_of_accepts (debounceAccepts_iff.2 hpast),
    runEvents_edgesAt_of_within (first := first)]
  case hbooted => exact hbooted
  case hlast => rfl
  case hclock => exact fun c hc => Option.some.inj hc ▸ hfirst ring List.mem_cons_self
  case hsorted => exact hringing
  case hwithin => exact hwithin
  refine ⟨rfl, rfl, fun hignore => ?_, fun hzero => ?_⟩
  · simp only [rejectedValue_of_ignore hignore, satInc_eq_min hwf.bal_le, satInc_eq_min hwf.cnt_le, and_self]
  · simp only [rejectedValue_of_zero hzero, and_self]

end Sys2Proof.Machine
end

section
/-! PROOFS. The wallet at boot, and its way through a reset (42_wallet_store.md R160 to R168). -/

namespace Sys2Proof.Machine

/-! ## The restore, by its result -/

theorem zeroAfterLoad_eq (s : State) :
    zeroAfterLoad s = { s with bal := if s.cfg.zeroBalanceAfterLoad then 0 else s.bal } := by
  unfold zeroAfterLoad
  split <;> rfl

theorem restoreWallet_valid_of_le {s : State} {b c : Nat} (hb : b ≤ s.cfg.balMax) (hc : c ≤ s.cfg.cntMax) :
    restoreWallet (.valid b c) s = s.setWallet b c :=
  if_pos (by simp [restoreFits, hb, hc])

/-- A pair that fits is loaded (R163), and its balance dropped where the parameter says so (R164). -/
theorem boot_valid_of_le {s : State} {b c : Nat} (hb : b ≤ s.cfg.balMax) (hc : c ≤ s.cfg.cntMax) :
    boot (.valid b c) s =
      { s with bal := if s.cfg.zeroBalanceAfterLoad then 0 else b, cnt := c, booted := true } := by
  rw [boot, restoreWallet_valid_of_le hb hc, zeroAfterLoad_eq]
  rfl

theorem boot_absent (s : State) :
    boot .absent s = { s with bal := 0, cnt := 0, booted := true, outputs := s.outputs ++ [.saveReq 0 0] } := by
  rcases boot_cases .absent s with ⟨_, _, hvalid, -⟩ | ⟨-, heq⟩ | ⟨hpresent, -⟩
  · cases hvalid
  · exact heq
  · exact absurd rfl hpresent

/-- The snapshot is there and cannot be loaded: it is corrupt (R162), or its pair does not fit (R163). -/
def Unloadable (c : Config) (r : RestoreResult) : Prop :=
  r = .corrupt ∨ ∃ b n, r = .valid b n ∧ (c.balMax < b ∨ c.cntMax < n)

theorem boot_of_unloadable {s : State} {r : RestoreResult} (h : Unloadable s.cfg r) :
    boot r s =
      { s with
        bal := 0, cnt := 0, booted := true, status := s.status ||| 4
        outputs := s.outputs ++ [.raised .persistenceFailure, .saveReq 0 0] } := by
  rcases boot_cases r s with ⟨b, c, rfl, hb, hc, -⟩ | ⟨rfl, -⟩ | ⟨-, heq⟩
  · rcases h with hcorrupt | ⟨_, _, hvalid, htoo⟩
    · cases hcorrupt
    · cases hvalid
      omega
  · rcases h with hcorrupt | ⟨_, _, hvalid, -⟩
    · cases hcorrupt
    · cases hvalid
  · exact heq

theorem fire_boot_of_not_booted {s : State} (r : RestoreResult) (h : s.booted = false) :
    fire (.boot r) s = .next (boot r s) :=
  fire_of_enabled (enabled_boot_iff.2 h)

/-- Settles O51: the three outcomes of the restore. -/
theorem bootRestoresTheWallet : Obligations.BootRestoresTheWallet := by
  refine ⟨fun _ _ => rfl, fun s hs => ?_, fun r s hs hunloadable => ?_, fun b c s hs hb hc => ?_⟩
  · rw [fire_boot_of_not_booted _ hs, boot_absent]
  · rw [fire_boot_of_not_booted _ hs, boot_of_unloadable hunloadable]
  · rw [fire_boot_of_not_booted _ hs, boot_valid_of_le hb hc]

/-! ## A reset and the restore of a pair -/

theorem fire_reset (s : State) :
    fire .reset s =
      .next { State.resetWith s.cfg with agenda := s.agenda, tick := s.tick, outputs := s.outputs } := by
  rw [fire_of_enabled rfl, perform, resetBlock_eq]

/-- `BOOT` is enabled by the reset before it, and a pair that fits brings no save request. -/
theorem runEvents_reset_boot_valid {s : State} {b c : Nat} (hb : b ≤ s.cfg.balMax) (hc : c ≤ s.cfg.cntMax) :
    runEvents [.reset, .boot (.valid b c)] s =
      { State.resetWith s.cfg with
        bal := if s.cfg.zeroBalanceAfterLoad then 0 else b, cnt := c, booted := true
        agenda := s.agenda, tick := s.tick, outputs := s.outputs } := by
  rw [runEvents_cons, fireState_of_fire (fire_reset s), runEvents_cons, runEvents_nil,
    fireState_of_fire (fire_boot_of_not_booted _ rfl)]
  exact boot_valid_of_le hb hc

/-- A command that changes the wallet makes its save request last, with the pair it leaves (R165, R193). -/
theorem durablePair_of_commandChanges {i : Instr} {s t : State} (h : exec i s = .next t)
    (hchanges : commandChanges i s = true) : durablePair t.outputs = some (t.bal, t.cnt) := by
  obtain ⟨r, raised, hexec, hchanged, -⟩ := exec_cases i s
  cases h.symm.trans hexec
  simp [durablePair, hchanged, hchanges]

theorem exec_cfg {i : Instr} {s t : State} (h : exec i s = .next t) : t.cfg = s.cfg := by
  obtain ⟨r, raised, hexec, -⟩ := exec_cases i s
  cases h.symm.trans hexec
  exact afterCommand_cfg s r raised

/-- Settles O53: the wallet that a command leaves fits its widths, so `BOOT` loads the pair that was made durable. -/
theorem changedWalletSurvivesReset : Obligations.ChangedWalletSurvivesReset := by
  intro i s hwf hchanges
  obtain ⟨t, hexec, -⟩ := commandsMoveTheWalletExactly i s hwf.bal_le
  refine ⟨t, hexec, durablePair_of_commandChanges hexec hchanges, _, rfl, ?_⟩
  have hcfg := exec_cfg hexec
  have hbal : t.bal ≤ t.cfg.balMax := hcfg ▸ exec_bal_le hexec hwf.bal_le
  have hcnt : t.cnt ≤ t.cfg.cntMax := hcfg ▸ (exec_cnt_le hexec).trans hwf.cnt_le
  rw [runEvents_reset_boot_valid hbal hcnt, hcfg]
  exact ⟨rfl, rfl, rfl, rfl⟩

end Sys2Proof.Machine
end

section
/-! PROOFS. The command processor (43_command_processor.md R180 to R195): the rule of each command, the save request of
a change, and the queries. -/

namespace Sys2Proof.Machine

/-! ## The save request and the queries (R193, R195) -/

/-- Settles O20: a response is marked as a change just when the command is one of the four of R193, and the save request
follows the mark. -/
theorem saveRequestExactlyOnChange : Obligations.SaveRequestExactlyOnChange := by
  intro i s
  obtain ⟨r, raised, hexec, hchanged, -⟩ := exec_cases i s
  refine ⟨_, hexec, ?_⟩
  rw [afterCommand_saveRequests, afterCommand_bal, afterCommand_cnt, hchanged]

/-- A query answers from the wallet pair and the parameters alone: every state that agrees with `s` on these gives the
same response. -/
theorem exists_query_response {q : Instr} (hq : q ∈ [Instr.getBalance, .getStatus, .getCoinCount]) (s : State) :
    ∃ message, ∀ t : State, t.bal = s.bal → t.cnt = s.cnt → t.cfg = s.cfg →
      exec q t = .next (afterCommand t ⟨.success, s.bal, s.cnt, message, false, 0⟩ []) := by
  simp only [List.mem_cons, List.not_mem_nil, or_false] at hq
  rcases hq with rfl | rfl | rfl
  · exact ⟨dec s.bal, fun t hbal hcnt _ => by rw [exec_getBalance, hbal, hcnt]⟩
  · exact ⟨s.cfg.statusText, fun t hbal hcnt hcfg => by rw [exec_getStatus, hbal, hcnt, hcfg]⟩
  · exact ⟨dec s.cnt, fun t hbal hcnt _ => by rw [exec_getCoinCount, hbal, hcnt]⟩

/-- The queue after a command is the response's frame, and as it was where there is none. -/
theorem afterCommand_txq (s : State) (r : Response) (raised : List ErrorCondition) :
    (afterCommand s r raised).txq = (encodeFrame (serialize r)).getD s.txq := by
  obtain ⟨f, hframe, htxq, -⟩ | ⟨hnone, htxq, -⟩ := afterCommand_tx s r raised
  · rw [htxq, hframe, Option.getD_some]
  · rw [htxq, hnone, Option.getD_none]

/-- Settles O19: the first answer leaves the wallet and the parameters, so the second response is the same, and both
find the queue empty. -/
theorem queriesAreIdempotent : Obligations.QueriesAreIdempotent := by
  intro q s hq hempty
  obtain ⟨message, hanswer⟩ := exists_query_response hq s
  obtain ⟨t, ht⟩ : ∃ t, t = afterCommand s ⟨.success, s.bal, s.cnt, message, false, 0⟩ [] := ⟨_, rfl⟩
  have hbal : t.bal = s.bal := by rw [ht, afterCommand_bal]
  have hcnt : t.cnt = s.cnt := by rw [ht, afterCommand_cnt]
  have hcfg : t.cfg = s.cfg := by rw [ht, afterCommand_cfg]
  have hlast : t.last = s.last := by rw [ht, afterCommand_last]
  have hsaves : saveRequests t.outputs = saveRequests s.outputs := by simp [ht]
  have hagain := hanswer { t with txq := [], txph := .idle, dir := false } hbal hcnt hcfg
  refine ⟨t, _, ht ▸ hanswer s rfl rfl rfl, hbal, hcnt, hlast, hsaves, hagain, ?_⟩
  rw [ht, afterCommand_txq, afterCommand_txq, hempty]

/-! ## The rule of each command (R182 to R192) -/

theorem dec_zero : dec 0 = [0x30] := dec_of_lt (by decide)

/-- Settles O10. -/
theorem getBalanceAnswersTheBalance : Obligations.GetBalanceAnswersTheBalance :=
  ⟨fun _ => parse_eq_iff_trim_eq rfl, exec_getBalance, dec_zero⟩

/-- Settles O11. -/
theorem getStatusAnswersTheFixedText : Obligations.GetStatusAnswersTheFixedText :=
  ⟨fun _ => parse_eq_iff_trim_eq rfl, exec_getStatus⟩

/-- No command but `RESET_COUNT` changes the count (R184, R190). -/
theorem exists_exec_cnt_eq {i : Instr} (hi : i ≠ .resetCount) (s : State) :
    ∃ t, exec i s = .next t ∧ t.cnt = s.cnt := by
  obtain ⟨r, raised, hexec, -, hrow⟩ := exec_cases i s
  refine ⟨_, hexec, (afterCommand_cnt ..).trans ?_⟩
  rcases hrow with ⟨-, hc⟩ | ⟨-, -, -, -, -, -, hc⟩ | ⟨-, -, -, -, -, -, hc⟩ | ⟨-, -, hc⟩ | ⟨hreset, -⟩
  · exact hc
  · exact hc
  · exact hc
  · exact hc
  · exact absurd hreset hi

/-- Settles O12. -/
theorem getCoinCountAnswersTheCount : Obligations.GetCoinCountAnswersTheCount :=
  ⟨fun _ => parse_eq_iff_trim_eq rfl, exec_getCoinCount,
    fun s a => ⟨exists_exec_cnt_eq (i := .addBalance a) nofun s, exists_exec_cnt_eq (i := .subBalance a) nofun s⟩⟩

/-- Settles O13: `007` is the decimal text of 7 behind two zeros. -/
theorem addBalanceAddsOrRefuses : Obligations.AddBalanceAddsOrRefuses :=
  ⟨fun _ _ => parse_eq_iff_trim_eq rfl, fun _ _ _ => exec_addBalance_of_le, fun _ _ _ => exec_addBalance_of_gt,
    fun _ => amount_replicate_zero_append_dec 2⟩

/-- Settles O14. -/
theorem subBalanceSubtractsOrRefuses : Obligations.SubBalanceSubtractsOrRefuses :=
  ⟨fun _ _ => parse_eq_iff_trim_eq rfl, fun _ _ _ => exec_subBalance_of_le, fun _ _ _ => exec_subBalance_of_gt⟩

/-- Settles O15. -/
theorem resetBalanceZeroesTheBalance : Obligations.ResetBalanceZeroesTheBalance :=
  ⟨fun _ => parse_eq_iff_trim_eq rfl, fun s => dec_zero ▸ exec_resetBalance s⟩

/-- Settles O16. -/
theorem resetCountZeroesTheCount : Obligations.ResetCountZeroesTheCount :=
  ⟨fun _ => parse_eq_iff_trim_eq rfl, exec_resetCount⟩

/-- The three ways to be no amount (R79, R191): no digit, a byte that is none, a value past `BAL_MAX`. -/
theorem amount_eq_none_of_malformed {c : Config} {a : Bytes}
    (h : a = [] ∨ (∃ b ∈ a, isDigit b = false) ∨ c.balMax < digitsValue a) : amount c a = none := by
  rcases h with rfl | ⟨b, hb, hdigit⟩ | habove
  · rfl
  · exact amount_eq_none_of_mem hb hdigit c
  · rw [Option.eq_none_iff_forall_ne_some]
    intro n hn
    obtain ⟨-, -, rfl, hle⟩ := amount_eq_some_iff.1 hn
    exact habove.not_ge hle

/-- Settles O17. -/
theorem malformedAmountIsRefused : Obligations.MalformedAmountIsRefused :=
  ⟨fun _ _ hnone => ⟨exec_addBalance_of_none hnone, exec_subBalance_of_none hnone⟩,
    fun _ _ => amount_eq_none_of_malformed⟩

/-- Settles O18. -/
theorem unknownCommandIsAnswered : Obligations.UnknownCommandIsAnswered := fun s t => exec_unknown t s

/-! ## The CMD step (R180) -/

/-- Settles O22: the offer is used up first, and `CMD`, enabled in what it leaves, takes the payload from `SLOT`. -/
theorem stepRunsTheDecodedCommand : Obligations.StepRunsTheDecodedCommand := by
  intro s p later legal hagenda hbooted hslot hidle
  rw [step_of_agenda_cons legal hagenda]
  exact fire_cmd_of_slot hbooted hidle hslot

end Sys2Proof.Machine
end

section
/-! PROOFS. Nothing is fatal (60_exceptions.md R240, R244): a command, an offered step and the machine's step on a legal
configuration answer a next state. -/

namespace Sys2Proof.Machine

theorem exists_exec_next (i : Instr) (s : State) : ∃ t, exec i s = .next t :=
  let ⟨_, _, hexec, _⟩ := exec_cases i s
  ⟨_, hexec⟩

theorem takeEvent_cfg (s : State) : (takeEvent s).cfg = s.cfg := by
  cases hagenda : s.agenda with
  | nil => rw [takeEvent_of_nil hagenda]
  | cons e later => rw [takeEvent_of_cons hagenda]

/-- A legal configuration is never refused: the machine's step is the offered step of some agent, whatever it is. -/
theorem exists_step_effect {s : State} (legal : s.cfg.Legal) :
    ∃ t, step s = .next t ∧ Effect (nextEvent s) (takeEvent s) t :=
  step_of_legal legal ▸ exists_fire_effect (nextEvent s) (takeEvent s)

/-- Settles O56: no command and no event stops, and neither the offer nor the step that fires writes the
configuration. -/
theorem nothingIsFatal : Obligations.NothingIsFatal := by
  refine ⟨exists_exec_next, fun e s => ?offered, fun s legal => ?machine⟩
  case offered =>
    obtain ⟨t, hfire, -⟩ := exists_fire_effect e s
    exact ⟨t, hfire⟩
  case machine =>
    obtain ⟨t, hstep, heffect⟩ := exists_step_effect legal
    exact ⟨t, hstep, heffect.frame.cfg.trans (takeEvent_cfg s)⟩

end Sys2Proof.Machine
end

section
/-! PROOFS. Reset gives every element its reset value (70_reset_and_hazards.md R260, 10_state.md R42). -/

namespace Sys2Proof.Machine

/-- Settles O52: no state disables `RESET`, and `fire_reset` names the state it answers: the reset state of R42, element
by element, beside the configuration and the outputs of `s`. -/
theorem resetSetsEveryElement : Obligations.ResetSetsEveryElement := by
  intro s
  have enabled_reset : enabled .reset s = true := rfl
  refine ⟨enabled_reset, _, fire_reset s, ?_⟩
  simp

end Sys2Proof.Machine
end

section
/-! PROOFS. R85's bound fails for decimal texts of 39 to 43 digits (30_encoding.md R85): an amount command that succeeds
answers with four numbers, `103 + 4·D` bytes in all. -/

namespace Sys2Proof.Machine

/-- A number of `k + 1` digits: both bounds lose a factor of 10 with its last digit. -/
theorem length_dec_eq_succ {k v : Nat} (hlow : 10 ^ k ≤ v) (hhigh : v < 10 ^ (k + 1)) : (dec v).length = k + 1 := by
  induction k generalizing v with
  | zero => exact length_dec_of_lt hhigh
  | succ k ih =>
    rw [length_dec_of_le (by omega), ih (v := v / 10) (by omega) (by omega)]

/-- A command whose response has more than 255 bytes sets `TX_TOOLARGE` (R180). -/
theorem status_afterCommand_of_length_gt {r : Response} (h : 255 < (serialize r).length) (s : State)
    (raised : List ErrorCondition) : (afterCommand s r raised).status = s.status ||| 2 := by
  obtain ⟨f, hframe, -⟩ | ⟨-, -, -, hstatus⟩ := afterCommand_tx s r raised
  · obtain ⟨hshort, -⟩ := encodeFrame_eq_some.1 hframe
    omega
  · exact hstatus

/-- The longest answer: the greatest amount added to an empty wallet stands in the response three times, beside the
count. -/
theorem exec_addBalance_balMax_sets_tooLarge {s : State} (hbal : s.bal = 0)
    (hlong : 152 < 3 * (dec s.cfg.balMax).length + (dec s.cnt).length) :
    ∃ t, exec (.addBalance (dec s.cfg.balMax)) s = .next t ∧ t.status = s.status ||| 2 := by
  have hamount : amount s.cfg (dec s.cfg.balMax) = some s.cfg.balMax :=
    amount_replicate_zero_append_dec 0 le_rfl
  refine ⟨_, exec_addBalance_of_le hamount (by omega), status_afterCommand_of_length_gt ?_ s []⟩
  rw [length_serialize_changed, hbal, Nat.zero_add]
  omega

/-- Registers of 130 bits, whose maxima have 40 digits. -/
def fortyDigitConfig : Config := { Config.default with balBits := 130, cntBits := 130 }

theorem fortyDigitConfig_legal : fortyDigitConfig.Legal := by decide

theorem length_dec_fortyDigitConfig_balMax : (dec fortyDigitConfig.balMax).length = 40 :=
  length_dec_eq_succ (by decide) (by decide)

theorem length_dec_fortyDigitConfig_cntMax : (dec fortyDigitConfig.cntMax).length = 40 :=
  length_dec_eq_succ (by decide) (by decide)

/-- Reset under that configuration, then a `BOOT` that restores no balance and the greatest count. -/
def fullCountState : State :=
  { State.resetWith fortyDigitConfig with bal := 0, cnt := fortyDigitConfig.cntMax, booted := true }

/-- The block gets there from reset by one `BOOT`. -/
theorem boot_resetWith_eq_fullCountState :
    boot (.valid 0 fortyDigitConfig.cntMax) (State.resetWith fortyDigitConfig) = fullCountState :=
  boot_valid_of_le (Nat.zero_le _) le_rfl

theorem fullCountState_wf : fullCountState.Wf := by
  have hfire := fire_boot_of_not_booted (.valid 0 fortyDigitConfig.cntMax) (State.resetWith_booted fortyDigitConfig)
  rw [boot_resetWith_eq_fullCountState] at hfire
  exact (effect_of_fire hfire).wf (State.resetWith_wf fortyDigitConfig_legal)

/-- Refutes O9: with 40-digit registers, no balance and the greatest count, `ADD_BALANCE` of the greatest amount answers
with 263 bytes, and `TX_TOOLARGE` is set where it was clear. -/
theorem not_responsesFitAtEveryWidthR85Allows : ¬ Obligations.ResponsesFitAtEveryWidthR85Allows := by
  intro hfit
  have hbalMax : (dec fullCountState.cfg.balMax).length = 40 := length_dec_fortyDigitConfig_balMax
  have hcntMax : (dec fullCountState.cfg.cntMax).length = 40 := length_dec_fortyDigitConfig_cntMax
  have hcnt : (dec fullCountState.cnt).length = 40 := length_dec_fortyDigitConfig_cntMax
  obtain ⟨t, hexec, hkept⟩ := hfit (.addBalance (dec fullCountState.cfg.balMax)) fullCountState 40 fullCountState_wf
    (by rw [hbalMax, hcntMax, max_self]) (by decide) (by decide) (by decide)
  obtain ⟨t', hexec', hset⟩ := exec_addBalance_balMax_sets_tooLarge (s := fullCountState) rfl (by omega)
  obtain rfl : t = t' := Host.Outcome.next.inj (hexec.symm.trans hexec')
  have hclear : fullCountState.status = 0 := rfl
  rw [hkept, hclear] at hset
  exact absurd hset (by decide)

end Sys2Proof.Machine
end
